-- ==== Sys2Proof/Word.lean ====
section
/-!
DEFINITION. The widths of the block's values (spec R6, R7): every value is unsigned, 8 or 32 bits wide.
-/

namespace Sys2Proof

/-- `u8` of R7: a byte of a frame, a rate, an input bitmask. -/
abbrev Byte := BitVec 8

/-- `u32` of R7: a timestamp, a pulse count or limit, an activation delay. Sums and differences wrap (R8, R42). -/
abbrev Word := BitVec 32

/-- A finite byte sequence (`RXBUF`, `TXBUF`, a frame or a payload; R60). -/
abbrev Bytes := List Byte

end Sys2Proof
end

