-- ==== Sys2Proof/Syntax.lean ====
section
/-!
DEFINITION. The operations of the block (spec R80, R94, R96): one constructor of `Instr` per row of the opcode table,
and the records their operands are made of.
-/

namespace Sys2Proof

/-- The four setup fields exactly as received (R36, R84). -/
structure SetupCfg where
  activationDelayUs : Word
  pulseLimit : Word
  targetPulseRateHz : Byte
  /-- bit 0 RESET_COUNTER, bit 1 SYNC_ON_RISING_EDGE, bits 7..2 stored and without effect (R85) -/
  flags : Byte
  deriving DecidableEq, Repr

/-- One thing the transport hands to the SERVICE phase (R43): a whole raw frame of any length, or an overflow report. -/
inductive Item where
  | frame (raw : Bytes)
  | overflow
  deriving DecidableEq, Repr

/-- The set of error conditions an operation has raised (R91); its 5-bit vector is `ErrFlags.vector`. -/
structure ErrFlags where
  lengthMismatch : Bool
  checksumMismatch : Bool
  notImplemented : Bool
  unknownType : Bool
  transportOverflow : Bool
  deriving DecidableEq, Repr

/-- What `DECODE` reads from a raw sequence of at least three bytes (R181). -/
structure FrameRecord where
  type : Byte
  length : Byte
  declaredCks : Byte
  /-- every byte actually present after the header -/
  payload : Bytes
  present : Nat
  computedCks : Byte
  err : ErrFlags
  deriving DecidableEq, Repr

/-- The result of `DECODE` (R181): `SHORT(ERR)` for a raw sequence of fewer than three bytes, with the number of bytes present
and the flag set raised, or the record, which holds its own flag set. -/
inductive DecodeResult where
  | short (present : Nat) (err : ErrFlags)
  | record (r : FrameRecord)
  deriving DecidableEq, Repr

/-- The error-report record of R208; `none` stands for the rule's "none". -/
structure Report where
  /-- `ERR[4:0]`, the vector of R91 -/
  flags : BitVec 5
  type : Option Byte
  declaredLen : Option Byte
  presentLen : Nat
  schemaLen : Option Nat
  declaredCks : Option Byte
  computedCks : Option Byte
  deriving DecidableEq, Repr

/-- The operations of R80, one constructor per row of `spec/opcode_table.json`, in the table's order. An RX operation
carries the header bytes after the type and the payload bytes actually present. -/
inductive Instr where
  -- EVENT (R94)
  | reset
  | adv (d : Nat)
  | edge (ch : Nat) (level : Bool)
  | tick
  | drain
  | service (items : List Item)
  | pollApply
  | loopStep
  | snapshot
  | apply (cfg : SetupCfg)
  | boundaryCommit
  | handle (raw : Bytes)
  | stage (cfg : SetupCfg)
  | report (err : ErrFlags) (r : DecodeResult)
  | overflow
  -- RX: inbound frames (R83, R93)
  | rxEcho (length checksum : Byte) (payload : Bytes)
  | rxSetup (length checksum : Byte) (payload : Bytes)
  | rxInputs (length checksum : Byte) (payload : Bytes)
  | rxAck (length checksum : Byte) (payload : Bytes)
  | rxError (length checksum : Byte) (payload : Bytes)
  | rxTxt (length checksum : Byte) (payload : Bytes)
  | rxUnknown (type length checksum : Byte) (payload : Bytes)
  | rxShort (raw : Bytes)
  -- TX: outbound frames (R86 to R90)
  | txEcho (raw : Bytes)
  | txAck
  | txInputs (uptimeUs pulseCount : Word) (inputs : Byte)
  | txError (text : Bytes)
  | txTxt (text : Bytes)
  -- FUNC: pure functions (R121, R180 to R185)
  | checksum (payload : Bytes)
  | decode (raw : Bytes)
  | encode (type : Byte) (payload : Bytes)
  | setupDecode (payload : Bytes)
  | setupEncode (cfg : SetupCfg)
  | inputsEncode (t c : Word) (b : Byte)
  | halfPeriod (r : Byte)
  deriving DecidableEq, Repr

/-- The two ways a frame passes the block's edge: port `rx` and port `tx` (R43). An RX row and a TX row of the table
have the same bits; the port tells them apart. -/
inductive Direction where
  | rx
  | tx
  deriving DecidableEq, Repr

/-- The port by which an operation with a bit pattern passes; `none` for the EVENT and FUNC rows, whose encoding is
empty (R94, R96). -/
def Instr.direction : Instr → Option Direction
  | .reset => none
  | .adv _ => none
  | .edge _ _ => none
  | .tick => none
  | .drain => none
  | .service _ => none
  | .pollApply => none
  | .loopStep => none
  | .snapshot => none
  | .apply _ => none
  | .boundaryCommit => none
  | .handle _ => none
  | .stage _ => none
  | .report _ _ => none
  | .overflow => none
  | .rxEcho _ _ _ => some .rx
  | .rxSetup _ _ _ => some .rx
  | .rxInputs _ _ _ => some .rx
  | .rxAck _ _ _ => some .rx
  | .rxError _ _ _ => some .rx
  | .rxTxt _ _ _ => some .rx
  | .rxUnknown _ _ _ _ => some .rx
  | .rxShort _ => some .rx
  | .txEcho _ => some .tx
  | .txAck => some .tx
  | .txInputs _ _ _ => some .tx
  | .txError _ => some .tx
  | .txTxt _ => some .tx
  | .checksum _ => none
  | .decode _ => none
  | .encode _ _ => none
  | .setupDecode _ => none
  | .setupEncode _ => none
  | .inputsEncode _ _ _ => none
  | .halfPeriod _ => none

end Sys2Proof
end

