-- ==== Sys2Proof/Config.lean ====
section
/-!
DEFINITION. The parameters of the block (spec R6): the constants the spec fixes, the type-code assignment with the
spec's default, and the two texts the spec leaves open.
-/

namespace Sys2Proof

/-- `TYPE_CODE` (R6, R83): the byte of each of the six message types. -/
structure TypeCodes where
  echo : Byte
  setup : Byte
  inputs : Byte
  ack : Byte
  error : Byte
  txt : Byte
  deriving DecidableEq, Repr

/-- The six codes in the order R83 lists the types. -/
def TypeCodes.list (tc : TypeCodes) : List Byte :=
  [tc.echo, tc.setup, tc.inputs, tc.ack, tc.error, tc.txt]

/-- `TYPE_CODE` is "any injective map" (R6, P4 of `93_implementation_defined.md`). -/
abbrev TypeCodes.Injective (tc : TypeCodes) : Prop := tc.list.Nodup

namespace Config

/-- The default `TYPE_CODE` of R83: ECHO 0, SETUP 1, INPUTS 2, ACK 3, ERROR 4, TXT 5. -/
def typeCode : TypeCodes :=
  { echo := 0, setup := 1, inputs := 2, ack := 3, error := 4, txt := 5 }

/-- `SECOND`, microseconds per second (R6). -/
def second : Nat := 1000000

/-- `SENTINEL`, the `pulse_count` value "not yet running since last reset" (R6, R27). -/
def sentinel : Word := 0xFFFFFFFF

/-- `SETUP_LEN` (R6, R84). -/
def setupLen : Nat := 10

/-- `INPUTS_LEN` (R6, R86). -/
def inputsLen : Nat := 9

/-- The longest payload a frame can carry: `length` is one byte (R61, R81). -/
def maxPayload : Nat := 255

/-- OPEN parameter `ERR_TEXT` (R6, P5): nothing says which text it gives. -/
opaque errTextRaw : Report → Bytes

/-- OPEN parameter `OVERFLOW_TEXT` (R6, P6). -/
opaque overflowTextRaw : Bytes

/-- `ERR_TEXT(record)`: any text of at most 255 bytes (R6, R89, R208). -/
def errText (r : Report) : Bytes := (errTextRaw r).take maxPayload

/-- `OVERFLOW_TEXT`: any text of at most 255 bytes (R6, R89, R212). -/
def overflowText : Bytes := overflowTextRaw.take maxPayload

end Config

end Sys2Proof
end

