-- ==== Sys2Proof/Machine/Flags.lean ====
section
/-!
DEFINITION. The error conditions of spec R91 and R240 and the flag set `ERR` they are collected in: raising a condition
adds it and stops nothing (R8, R241, R242).
-/

namespace Sys2Proof

/-- The empty flag set: success (R200). -/
def ErrFlags.empty : ErrFlags := ⟨false, false, false, false, false⟩

/-- `ERR = {}` (R200). -/
def ErrFlags.isEmpty (e : ErrFlags) : Bool :=
  !(e.lengthMismatch || e.checksumMismatch || e.notImplemented || e.unknownType || e.transportOverflow)

/-- `ERR[4:0]` (R91): bit 0 LENGTH_MISMATCH, 1 CHECKSUM_MISMATCH, 2 NOT_IMPLEMENTED, 3 UNKNOWN_TYPE,
4 TRANSPORT_OVERFLOW. -/
def ErrFlags.vector (e : ErrFlags) : BitVec 5 :=
  BitVec.ofBool e.transportOverflow ++ BitVec.ofBool e.unknownType ++ BitVec.ofBool e.notImplemented
    ++ BitVec.ofBool e.checksumMismatch ++ BitVec.ofBool e.lengthMismatch

namespace Machine

/-- `raise LENGTH_MISMATCH` (R240). -/
def raiseLength (e : ErrFlags) : ErrFlags := { e with lengthMismatch := true }

/-- `raise CHECKSUM_MISMATCH` (R240). -/
def raiseChecksum (e : ErrFlags) : ErrFlags := { e with checksumMismatch := true }

/-- `raise NOT_IMPLEMENTED` (R203, R205, R206, R240). -/
def raiseNotImplemented (e : ErrFlags) : ErrFlags := { e with notImplemented := true }

/-- `raise UNKNOWN_TYPE` (R207, R240). -/
def raiseUnknownType (e : ErrFlags) : ErrFlags := { e with unknownType := true }

/-- `raise TRANSPORT_OVERFLOW` (R212, R240). -/
def raiseOverflow (e : ErrFlags) : ErrFlags := { e with transportOverflow := true }

end Machine

end Sys2Proof
end

