-- ==== Sys2Proof/Machine/Operands.lean ====
section
/-!
DEFINITION. Operand forms: the byte-buffer reads and writes of spec R8, the little-endian assembly of R92, the bits of
the setup `flags` byte (R85) and of the input latch (R160), modular time differences (R8, R122).
-/

namespace Sys2Proof.Machine

/-- Little-endian value of a byte sequence: byte `k` weighs `256^k` (R8, R63, R92). -/
def leValue : Bytes → Nat
  | [] => 0
  | b :: rest => b.toNat + 256 * leValue rest

/-- The `n` low-order bytes of `v`, least significant first (R8, R92). -/
def leBytes : Nat → Nat → Bytes
  | 0, _ => []
  | n + 1, v => BitVec.ofNat 8 v :: leBytes n (v / 256)

/-- `MemRead(buf, off, n)` of R8, "defined only when `off + n <= len(buf)`": `none` elsewhere. -/
def memRead (buf : Bytes) (off n : Nat) : Option Nat :=
  if off + n ≤ buf.length then some (leValue ((buf.drop off).take n)) else none

/-- `MemWrite(buf, off, n, v)` of R8: the bytes `off .. off+n-1` become the little-endian bytes of `v`. -/
def memWrite (buf : Bytes) (off n v : Nat) : Bytes :=
  buf.take off ++ leBytes n v ++ buf.drop (off + n)

/-- `flags[0]`, `RESET_COUNTER` (R85). -/
def resetCounterFlag (flags : Byte) : Bool := flags.getLsbD 0

/-- `flags[1]`, `SYNC_ON_RISING_EDGE` (R85). -/
def syncOnRisingFlag (flags : Byte) : Bool := flags.getLsbD 1

/-- `IL.bits[ch] <- level`, "the other seven bits unchanged" (R160). -/
def writeInputBit (bits : Byte) (ch : Nat) (level : Bool) : Byte :=
  if level then bits ||| (1#8 <<< ch) else bits &&& ~~~(1#8 <<< ch)

/-- `sub32(now, reference)`: microseconds from `reference` to `now` modulo 2^32 (R8, R122, R210). -/
def elapsedUs (now reference : Word) : Nat := (now - reference).toNat

/-- `half_period(r) = floor(1 000 000 / (2 * r))`, computed without overflow (R121). -/
def halfPeriodUs (r : Byte) : Nat := Config.second / (2 * r.toNat)

end Sys2Proof.Machine
end

