-- ==== Sys2Proof/Machine/Codec.lean ====
section
/-!
DEFINITION. The message codec (spec R180 to R185): checksum, frame validator, frame encoder and payload codecs, all
pure functions, and the message type a type byte selects (R83).
-/

namespace Sys2Proof.Machine

/-- `CHECKSUM payload`: the 8-bit wrapping sum of the payload bytes (R180). -/
def checksumOf (payload : Bytes) : Byte := payload.foldl (· + ·) 0

/-- The record `DECODE` returns for the header bytes and the payload bytes present: length and checksum are checked
independently, over every byte present (R181). -/
def decodeRecord (type length cks : Byte) (payload : Bytes) : FrameRecord :=
  { type := type
    length := length
    declaredCks := cks
    payload := payload
    present := payload.length
    computedCks := checksumOf payload
    err :=
      let e := if length.toNat ≠ payload.length then raiseLength .empty else .empty
      if cks ≠ checksumOf payload then raiseChecksum e else e }

/-- The flag set `DECODE` raises for a raw sequence shorter than a header: `LENGTH_MISMATCH` alone (R181). -/
def shortFlags : ErrFlags := raiseLength .empty

/-- `DECODE raw` (R181). -/
def decodeFrame : Bytes → DecodeResult
  | type :: length :: cks :: payload => .record (decodeRecord type length cks payload)
  | raw => .short raw.length shortFlags

/-- The bytes a decoded record was read from, header first (R81, R88). -/
def rawOf (r : FrameRecord) : Bytes := r.type :: r.length :: r.declaredCks :: r.payload

/-- `ENCODE type payload` (R182); its callers keep `len(payload) <= 255`. -/
def encodeFrame (type : Byte) (payload : Bytes) : Bytes :=
  type :: BitVec.ofNat 8 payload.length :: checksumOf payload :: payload

/-- `SETUP_DECODE payload` (R183): `none` unless the payload has exactly 10 bytes, the rule's precondition. -/
def decodeSetup (payload : Bytes) : Option SetupCfg :=
  if payload.length = Config.setupLen then do
    let d ← memRead payload 0 4
    let l ← memRead payload 4 4
    let r ← memRead payload 8 1
    let f ← memRead payload 9 1
    some ⟨BitVec.ofNat 32 d, BitVec.ofNat 32 l, BitVec.ofNat 8 r, BitVec.ofNat 8 f⟩
  else none

/-- `SETUP_ENCODE (d, l, r, f)` (R184). -/
def encodeSetup (cfg : SetupCfg) : Bytes :=
  let p := List.replicate Config.setupLen 0
  let p := memWrite p 0 4 cfg.activationDelayUs.toNat
  let p := memWrite p 4 4 cfg.pulseLimit.toNat
  let p := memWrite p 8 1 cfg.targetPulseRateHz.toNat
  memWrite p 9 1 cfg.flags.toNat

/-- `INPUTS_ENCODE (t, c, b)` (R185). -/
def encodeInputs (t c : Word) (b : Byte) : Bytes :=
  let p := List.replicate Config.inputsLen 0
  let p := memWrite p 0 4 t.toNat
  let p := memWrite p 4 4 c.toNat
  memWrite p 8 1 b.toNat

/-- The outbound `INPUTS` frame of `send_inputs` (R86, R213). -/
def inputsFrame (tc : TypeCodes) (t c : Word) (b : Byte) : Bytes := encodeFrame tc.inputs (encodeInputs t c b)

/-- The outbound `ACK` frame of `send_ack`: no payload (R87, R213). -/
def ackFrame (tc : TypeCodes) : Bytes := encodeFrame tc.ack []

/-- The outbound `ERROR` frame of `send_error` (R89, R213). -/
def errorFrame (tc : TypeCodes) (text : Bytes) : Bytes := encodeFrame tc.error text

/-- The outbound `TXT` frame of `send_text` (R90, R213). -/
def txtFrame (tc : TypeCodes) (text : Bytes) : Bytes := encodeFrame tc.txt text

/-- `raw` is a well-formed frame of type ECHO, the only thing an ECHO reply can be (R88, R201). -/
def isEchoFrame (tc : TypeCodes) (raw : Bytes) : Bool :=
  match decodeFrame raw with
  | .short _ _ => false
  | .record r => r.type == tc.echo && r.err.isEmpty

end Sys2Proof.Machine
end

