-- ==== Sys2Proof/WellFormed.lean ====
section
/-!
DEFINITION. Which terms of `Instr` are operations of the hardware (spec R9, R93, R94): the operand bounds the spec states,
one named check each. What depends on the machine's state (an input channel without a pin, the phase order) is checked by
the operation itself.
-/

namespace Sys2Proof

/-- Operand `ch` of `EDGE` is 0..7 (R94, R160, X1). -/
def wfChannel (ch : Nat) : Bool := decide (ch < 8)

/-- A payload that fits the one-byte `length` (R182, X2). -/
def wfText (text : Bytes) : Bool := decide (text.length ≤ Config.maxPayload)

/-- The operand of `SETUP_DECODE` has exactly 10 bytes (R183). -/
def wfSetupPayload (payload : Bytes) : Bool := decide (payload.length = Config.setupLen)

/-- The operand of `half_period` is 1..255 (R121). -/
def wfRate (r : Byte) : Bool := decide (r ≠ 0)

/-- The type byte of `RX.UNKNOWN` is none of the six codes (R83, R207). -/
def wfUnknownType (tc : TypeCodes) (type : Byte) : Bool := decide (type ∉ tc.list)

/-- `RX.SHORT` has no complete header (R181). -/
def wfShort (raw : Bytes) : Bool := decide (raw.length < 3)

/-- `TX.ECHO` is a well-formed ECHO frame (R88, R201). -/
def wfEcho (tc : TypeCodes) (raw : Bytes) : Bool := Machine.isEchoFrame tc raw

/-- The well-formed operations under a type-code assignment. An inbound frame is one whatever its length and checksum
bytes are (R93: "None traps; all are handled in place"). -/
def Instr.wellFormed (tc : TypeCodes) : Instr → Bool
  | .reset => true
  | .adv _ => true
  | .edge ch _ => wfChannel ch
  | .tick => true
  | .drain => true
  | .service _ => true
  | .pollApply => true
  | .loopStep => true
  | .snapshot => true
  | .apply _ => true
  | .boundaryCommit => true
  | .handle _ => true
  | .stage _ => true
  | .report _ _ => true
  | .overflow => true
  | .rxEcho _ _ _ => true
  | .rxSetup _ _ _ => true
  | .rxInputs _ _ _ => true
  | .rxAck _ _ _ => true
  | .rxError _ _ _ => true
  | .rxTxt _ _ _ => true
  | .rxUnknown type _ _ _ => wfUnknownType tc type
  | .rxShort raw => wfShort raw
  | .txEcho raw => wfEcho tc raw
  | .txAck => true
  | .txInputs _ _ _ => true
  | .txError text => wfText text
  | .txTxt text => wfText text
  | .checksum _ => true
  | .decode _ => true
  | .encode _ payload => wfText payload
  | .setupDecode payload => wfSetupPayload payload
  | .setupEncode _ => true
  | .inputsEncode _ _ _ => true
  | .halfPeriod r => wfRate r

end Sys2Proof
end

