-- ==== Sys2Proof/Decode.lean ====
section
/-!
DEFINITION. The decoder of frames (spec R81 to R93), total on any bytes, and the encoder. The type byte selects the
operation (R83); the port a frame passes tells an inbound row from an outbound one (R43, R96). The EVENT and FUNC rows
have no bits (R94).
-/

namespace Sys2Proof

/-- What the type byte selects (R83): one of the six message types, or none of them. -/
inductive FrameType where
  | echo
  | setup
  | inputs
  | ack
  | error
  | txt
  | other
  deriving DecidableEq, Repr

/-- The message type of a type byte under an assignment `TYPE_CODE` (R83, R96). -/
def frameType (tc : TypeCodes) (type : Byte) : FrameType :=
  if type = tc.echo then .echo
  else if type = tc.setup then .setup
  else if type = tc.inputs then .inputs
  else if type = tc.ack then .ack
  else if type = tc.error then .error
  else if type = tc.txt then .txt
  else .other

/-- Why bytes on port `tx` are no frame the block can emit. Nothing on port `rx` is rejected (R93). -/
inductive DecodeReject where
  /-- fewer than three bytes: no header (R81); safe, no row of the table has such bytes -/
  | shortFrame
  /-- `length` or `checksum` disagrees with the payload, which `ENCODE` always fills (R182); safe -/
  | malformed
  /-- type SETUP is "never emitted" (R83); safe -/
  | setupNeverEmitted
  /-- an outbound INPUTS payload is 9 bytes (R86); safe -/
  | inputsLength
  /-- an outbound ACK has no payload (R87); safe -/
  | ackNotEmpty
  /-- types other than the six are "never emitted" (R83); safe -/
  | unknownType
  deriving DecidableEq, Repr

/-- The inbound operation of a raw sequence: every sequence of any length is one (R93, R200). -/
def decodeRx (tc : TypeCodes) : Bytes → Instr
  | type :: length :: cks :: payload =>
    match frameType tc type with
    | .echo => .rxEcho length cks payload
    | .setup => .rxSetup length cks payload
    | .inputs => .rxInputs length cks payload
    | .ack => .rxAck length cks payload
    | .error => .rxError length cks payload
    | .txt => .rxTxt length cks payload
    | .other => .rxUnknown type length cks payload
  | raw => .rxShort raw

/-- The fields of a 9-byte INPUTS payload (R86). -/
def decodeInputs (payload : Bytes) : Option (Word × Word × Byte) :=
  if payload.length = Config.inputsLen then do
    let t ← Machine.memRead payload 0 4
    let c ← Machine.memRead payload 4 4
    let b ← Machine.memRead payload 8 1
    some (BitVec.ofNat 32 t, BitVec.ofNat 32 c, BitVec.ofNat 8 b)
  else none

/-- The outbound operation of a frame on port `tx` (R83, R86 to R90). -/
def decodeTx (tc : TypeCodes) (raw : Bytes) : Except DecodeReject Instr :=
  match Machine.decodeFrame raw with
  | .short _ _ => .error .shortFrame
  | .record r =>
    if r.err.isEmpty then
      match frameType tc r.type with
      | .echo => .ok (.txEcho raw)
      | .setup => .error .setupNeverEmitted
      | .inputs =>
        match decodeInputs r.payload with
        | some (t, c, b) => .ok (.txInputs t c b)
        | none => .error .inputsLength
      | .ack => if r.payload = [] then .ok .txAck else .error .ackNotEmpty
      | .error => .ok (.txError r.payload)
      | .txt => .ok (.txTxt r.payload)
      | .other => .error .unknownType
    else .error .malformed

/-- The operation a byte sequence is, on each port. -/
def decode (d : Direction) (tc : TypeCodes) (raw : Bytes) : Except DecodeReject Instr :=
  match d with
  | .rx => .ok (decodeRx tc raw)
  | .tx => decodeTx tc raw

/-- The bytes of an operation that has a bit pattern (R81 to R90); `none` for the EVENT and FUNC rows (R94, R96). -/
def encode (tc : TypeCodes) : Instr → Option Bytes
  | .reset => none
  | .adv _ => none
  | .edge _ _ => none
  | .tick => none
  | .drain => none
  | .service _ => none
  | .pollApply => none
  | .loopStep => none
  | .snapshot => none
  | .apply _ => none
  | .boundaryCommit => none
  | .handle _ => none
  | .stage _ => none
  | .report _ _ => none
  | .overflow => none
  | .rxEcho length cks payload => some (tc.echo :: length :: cks :: payload)
  | .rxSetup length cks payload => some (tc.setup :: length :: cks :: payload)
  | .rxInputs length cks payload => some (tc.inputs :: length :: cks :: payload)
  | .rxAck length cks payload => some (tc.ack :: length :: cks :: payload)
  | .rxError length cks payload => some (tc.error :: length :: cks :: payload)
  | .rxTxt length cks payload => some (tc.txt :: length :: cks :: payload)
  | .rxUnknown type length cks payload => some (type :: length :: cks :: payload)
  | .rxShort raw => some raw
  | .txEcho raw => some raw
  | .txAck => some (Machine.ackFrame tc)
  | .txInputs t c b => some (Machine.inputsFrame tc t c b)
  | .txError text => some (Machine.errorFrame tc text)
  | .txTxt text => some (Machine.txtFrame tc text)
  | .checksum _ => none
  | .decode _ => none
  | .encode _ _ => none
  | .setupDecode _ => none
  | .setupEncode _ => none
  | .inputsEncode _ _ _ => none
  | .halfPeriod _ => none

/-- The `n` bytes of a word in which the FIRST byte stands in the highest bits, as the opcode table packs a header:
`type` in bits 23..16, `length` in bits 15..8, `checksum` in bits 7..0 (R96). -/
def tableBytes : Nat → Nat → Bytes
  | 0, _ => []
  | n + 1, w => BitVec.ofNat 8 (w / 256 ^ n) :: tableBytes n w

/-- The raw sequence of a table word: its bytes, then payload bytes of zero up to the frame's `3 + length` (R82). -/
def tableFrame (nbits w : Nat) : Bytes :=
  match tableBytes (nbits / 8) w with
  | type :: length :: cks :: rest =>
    type :: length :: cks :: (rest ++ List.replicate (length.toNat - rest.length) 0)
  | raw => raw

/-- The inbound operation the decoder reads from a word of the opcode table, under the default type codes (R83, R96). -/
def decodeTableWord (nbits w : Nat) : Option Instr :=
  match decode .rx Config.typeCode (tableFrame nbits w) with
  | .ok i => some i
  | .error _ => none

end Sys2Proof
end

