-- ==== Sys2Proof/Machine/State.lean ====
section
/-!
DEFINITION. The state of the block, S0 to S18 of spec R20, beside the model's own fields: the parameters (R6), the
environment (R5, R43) and what the last operation put out (R39, R43). Plain data; there is no addressed memory (R60).
-/

namespace Sys2Proof.Machine

/-- `SEQ.phase`, the operation the control loop performs next (R38, R41). -/
inductive Phase where
  | tick
  | drain
  | service
  | pollApply
  deriving DecidableEq, Repr

/-- The engine's three states, a function of its registers and not state (R120). -/
inductive EngineState where
  | stopped
  | running
  | stopping
  deriving DecidableEq, Repr

/-- `PE`, S1 to S10 (R22 to R30). -/
structure PulseEngine where
  waveLevel : Bool
  currentRateHz : Byte
  requestedRateHz : Byte
  pulseLimit : Word
  syncOnRisingEdge : Bool
  pulseCount : Word
  lastToggleUs : Word
  syncAtUs : Word
  syncValid : Bool
  resetPending : Bool
  deriving DecidableEq, Repr

/-- `IL`, S11 to S13 (R32 to R34). -/
structure InputLatch where
  bits : Byte
  changedAtUs : Word
  lastObservedUs : Word
  deriving DecidableEq, Repr

/-- `SR`, S14 to S16 (R35 to R37). -/
structure Staging where
  stagedValid : Bool
  staged : SetupCfg
  stagedAtUs : Word
  deriving DecidableEq, Repr

/-- The model's arguments `IN_PRESENT` and `TYPE_CODE` (R6, P1, P4). Not state of the block (R39): no operation writes
them. `N_OUT` and `OUT_PRESENT` are the shape of `State.out`. DESIGN CHOICE, log 1. -/
structure Params where
  inPresent : BitVec 8
  typeCode : TypeCodes
  deriving DecidableEq, Repr

/-- The next step of one agent (R5). `loop` is a LOOP step before which the host has offered items to port `rx`: the host
"has no step of its own". -/
inductive Turn where
  | rst
  | clkAdv (d : Nat)
  | edge (ch : Nat) (level : Bool)
  | loop (offered : List Item)
  deriving DecidableEq, Repr

/-- The environment: what port `rx` holds (R94) and the agents that step next, in the total order of R69; when none is
listed the LOOP agent steps. The environment's, not the block's. DESIGN CHOICE, log 2 and log 3. -/
structure Env where
  rx : List Item
  turns : List Turn
  deriving DecidableEq, Repr

/-- The value an operation gives back, where its rule gives one. -/
inductive Result where
  | none
  /-- `SNAPSHOT`: the pair `(b, t)` (R162) -/
  | latch (b : Byte) (t : Word)
  /-- `HANDLE` and the inbound frames: the flag set (R200); `OVERFLOW`: its flag set (R212) -/
  | flags (err : ErrFlags)
  /-- `SERVICE`: the flag set of each item, in order (R215) -/
  | serviced (errs : List ErrFlags)
  /-- `CHECKSUM` (R180) -/
  | byte (v : Byte)
  /-- `DECODE` (R181) -/
  | decoded (r : DecodeResult)
  /-- `ENCODE`, `SETUP_ENCODE`, `INPUTS_ENCODE` (R182, R184, R185) -/
  | bytes (bs : Bytes)
  /-- `SETUP_DECODE` (R183) -/
  | setup (cfg : SetupCfg)
  /-- `half_period`, in microseconds (R121) -/
  | micros (us : Nat)
  deriving DecidableEq, Repr

/-- What the last operation put out: the frames on port `tx` in emission order (R43, R213), the report records behind its
ERROR frames (R208) and its result. Cleared when an operation begins, so that nothing is carried from one operation to
the next (R39, R73). DESIGN CHOICE, log 4. -/
structure Port where
  tx : List Bytes
  reports : List Report
  result : Result
  deriving DecidableEq, Repr

/-- The state (R20). `out` has one entry for each of the `N_OUT` output channels: `none` for a channel without a pin, whose
level "is not state" (P3), else `some` of its level `OUT.level[k]` (R31). -/
structure State where
  nowUs : Word
  pe : PulseEngine
  il : InputLatch
  sr : Staging
  phase : Phase
  out : List (Option Bool)
  params : Params
  env : Env
  port : Port
  deriving DecidableEq, Repr

/-- No operation of the block faults (R9; section 3 of `93_implementation_defined.md`): there is no constructor, so no
meaning can answer with a fault. -/
inductive Fault where
  deriving DecidableEq, Repr

/-- Operations outside their stated precondition: "not an operation of the hardware at all; a model gives it no step and
refuses it by name" (R9). Every one is safe: the model stops where the hardware has no operation. -/
inductive Refusal where
  /-- raised by `exec` for an operation without a meaning; no arm does; safe -/
  | notModelled (mnemonic : String)
  /-- raised by `EDGE` on a channel above 7 or without a pin (R161, X1); safe -/
  | absentChannel
  /-- raised by `ENCODE`, `TX.ERROR` and `TX.TXT` on more than 255 payload bytes (R182, X2); safe -/
  | payloadTooLong
  /-- raised by `TICK`, `DRAIN`, `SERVICE`, `POLL_APPLY` when `SEQ.phase` names another operation (R214, X3); safe -/
  | outOfPhase
  /-- raised by `BOUNDARY_COMMIT` while the wave is HIGH (R128, precondition); safe -/
  | commitWhileHigh
  /-- raised by `SETUP_DECODE` on a payload of other than 10 bytes (R183); safe -/
  | setupPayloadLength
  /-- raised by `half_period` on 0, where it is not defined (R121); safe -/
  | halfPeriodOfZero
  /-- raised by `RX.UNKNOWN` on one of the six type codes: not a term of that row (R83, R207); safe -/
  | recognizedType
  /-- raised by `RX.SHORT` on three bytes or more: not a term of that row (R181); safe -/
  | notShort
  /-- raised by `TX.ECHO` on bytes that are no well-formed ECHO frame: the block never emits them (R88, R201); safe -/
  | notEchoFrame
  deriving DecidableEq, Repr

/-- The engine after reset (R20, R270). -/
def PulseEngine.reset : PulseEngine :=
  { waveLevel := false, currentRateHz := 0, requestedRateHz := 0, pulseLimit := 0, syncOnRisingEdge := false,
    pulseCount := Config.sentinel, lastToggleUs := 0, syncAtUs := 0, syncValid := false, resetPending := false }

/-- The latch after reset (R20, R270). -/
def InputLatch.reset : InputLatch := { bits := 0, changedAtUs := 0, lastObservedUs := 0 }

/-- The staging register after reset (R20, R270). -/
def Staging.reset : Staging :=
  { stagedValid := false
    staged := { activationDelayUs := 0, pulseLimit := 0, targetPulseRateHz := 0, flags := 0 }
    stagedAtUs := 0 }

/-- Nothing put out. -/
def Port.idle : Port := { tx := [], reports := [], result := .none }

/-- The machine right after reset (R20, R270). The parameters have the values of Part 3 of `95_test_vectors.md`
(`IN_PRESENT` = 0xFF, `N_OUT` = 1, `OUT_PRESENT` = 1, default `TYPE_CODE`): DESIGN CHOICE, unsafe, log 1. -/
def State.reset : State :=
  { nowUs := 0
    pe := .reset
    il := .reset
    sr := .reset
    phase := .tick
    out := [some false]
    params := { inPresent := 0xFF, typeCode := Config.typeCode }
    env := { rx := [], turns := [] }
    port := .idle }

end Sys2Proof.Machine
end

