-- ==== Sys2Proof/Machine/Ops.lean ====
section
/-!
DEFINITION. The shared operations on the state that the meanings are made of: outbound builders (spec R213), the Pulse
Engine (R120 to R129), the Input Latch (R160 to R163), the error report (R208, where a processor takes an exception), the
inbound arms (R200 to R207), staging (R209, R210), the overflow report (R212), SERVICE (R215) and the sequencer (R214).
-/

namespace Sys2Proof.Machine

/-! Ports. -/

/-- The state as an operation begins: what the operation before put out has been taken (R39, R251). -/
def State.begin (s : State) : State := { s with port := .idle }

/-- `emit`: append one outbound frame to the stream `tx` (R8, R73). -/
def emit (frame : Bytes) (s : State) : State :=
  { s with port := { s.port with tx := s.port.tx ++ [frame] } }

/-- Give back an operation's result. -/
def withResult (r : Result) (s : State) : State := { s with port := { s.port with result := r } }

/-- The level on port `trig_out[k]` (R43): `none` where channel `k` has no pin. -/
def trigOut (s : State) (k : Nat) : Option Bool := (s.out[k]?).join

/-- `send_inputs(t, c, b)` (R213). -/
def sendInputs (t c : Word) (b : Byte) (s : State) : State := emit (inputsFrame s.params.typeCode t c b) s

/-- `send_ack()` (R213). -/
def sendAck (s : State) : State := emit (ackFrame s.params.typeCode) s

/-- `send_error(text)` (R213). -/
def sendError (text : Bytes) (s : State) : State := emit (errorFrame s.params.typeCode text) s

/-- `send_text(text)` (R213). -/
def sendText (text : Bytes) (s : State) : State := emit (txtFrame s.params.typeCode text) s

/-! Time and reset. -/

/-- `ADV(d)`: `TIME.now_us <- (TIME.now_us + d) mod 2^32` (R21). -/
def advanceClock (d : Nat) (s : State) : State := { s with nowUs := s.nowUs + BitVec.ofNat 32 d }

/-- `set_outputs(level)`: every present channel is driven, a channel without a pin is skipped (R31, R124, R250). -/
def driveOutputs (level : Bool) (out : List (Option Bool)) : List (Option Bool) :=
  out.map (Option.map fun _ => level)

/-- `RESET`: every element at once at its reset value (R270). The parameters, the transport's contents and the
environment's turns are outside the block (log 17). -/
def resetAll (s : State) : State :=
  { s with
    nowUs := 0
    pe := .reset
    il := .reset
    sr := .reset
    phase := .tick
    out := driveOutputs false s.out }

/-! Pulse Engine. -/

/-- The engine's state as a function of its rates (R120). -/
def engineState (pe : PulseEngine) : EngineState :=
  if pe.currentRateHz = 0 then .stopped
  else if pe.requestedRateHz = 0 then .stopping
  else .running

/-- The gate of `TICK`, step 1: the rate is not 0 and a half-period has elapsed, equality included (R123). -/
def togglesNow (s : State) : Bool :=
  decide (s.pe.currentRateHz ≠ 0) &&
    decide (halfPeriodUs s.pe.currentRateHz ≤ elapsedUs s.nowUs s.pe.lastToggleUs)

/-- `STEP2`: toggle, drive, count on a rising edge (R124). -/
def toggleWave (s : State) : State :=
  let level := !s.pe.waveLevel
  { s with
    pe := { s.pe with
      waveLevel := level
      lastToggleUs := s.nowUs
      pulseCount := if level then s.pe.pulseCount + 1 else s.pe.pulseCount }
    out := driveOutputs level s.out }

/-- `STEP3`: the synchronization mark (R125). -/
def syncMark (s : State) : State :=
  if s.pe.pulseCount = 0 ∧ s.pe.waveLevel = s.pe.syncOnRisingEdge then
    { s with pe := { s.pe with syncAtUs := s.nowUs, syncValid := true } }
  else s

/-- `STEP4`: the pulse limit, an unsigned 32-bit comparison on every toggle (R126). -/
def limitStop (s : State) : State :=
  if s.pe.pulseLimit ≠ 0 ∧ s.pe.pulseLimit.toNat ≤ s.pe.pulseCount.toNat then
    { s with pe := { s.pe with requestedRateHz := 0 } }
  else s

/-- `BOUNDARY_COMMIT`: the requested rate becomes current, a pending counter reset is done (R128). Its precondition
`PE.wave_level = 0` is its callers' (log 12). -/
def boundaryCommit (s : State) : State :=
  let pe := { s.pe with currentRateHz := s.pe.requestedRateHz }
  if s.pe.resetPending then
    { s with pe := { pe with pulseCount := Config.sentinel, syncValid := false, resetPending := false } }
  else { s with pe := pe }

/-- `STEP5`: commit when the wave has returned to LOW (R127). -/
def commitOnLow (s : State) : State := if s.pe.waveLevel then s else boundaryCommit s

/-- `TICK`: nothing at all, or steps 2 to 5, each seeing the writes of the one before (R123). -/
def tickEngine (s : State) : State :=
  if togglesNow s then commitOnLow (limitStop (syncMark (toggleWave s))) else s

/-- `APPLY cfg` (R129). -/
def applyCfg (cfg : SetupCfg) (s : State) : State :=
  let s' := { s with
    pe := { s.pe with
      requestedRateHz := cfg.targetPulseRateHz
      pulseLimit := cfg.pulseLimit
      syncOnRisingEdge := syncOnRisingFlag cfg.flags
      resetPending := s.pe.resetPending || resetCounterFlag cfg.flags } }
  if s.pe.currentRateHz = 0 then boundaryCommit s' else s'

/-! Input Latch. -/

/-- Channel `ch` is one of 0..7 and has a pin, hence an edge handler (R161, R243). -/
def channelPresent (s : State) (ch : Nat) : Bool := decide (ch < 8) && s.params.inPresent.getLsbD ch

/-- `EDGE ch level`: the bit and the time, one atomic update (R66, R160). -/
def edgeLatch (ch : Nat) (level : Bool) (s : State) : State :=
  { s with il := { s.il with bits := writeInputBit s.il.bits ch level, changedAtUs := s.nowUs } }

/-- `SNAPSHOT`: the pair, read in one critical section; nothing is written (R162). -/
def snapshotLatch (s : State) : Byte × Word := (s.il.bits, s.il.changedAtUs)

/-- `DRAIN`: at most one notification, when the timestamp differs from the last observed one (R163). -/
def drainLatch (s : State) : State :=
  let (b, t) := snapshotLatch s
  if t ≠ s.il.lastObservedUs then
    sendInputs t s.pe.pulseCount b { s with il := { s.il with lastObservedUs := t } }
  else s

/-! Error report. -/

/-- The report record of R208. `schema_len` is 10 exactly when the SETUP arm raised LENGTH_MISMATCH, that is when the
type is SETUP and the declared length is not 10 (R202; log 11). -/
def reportRecord (tc : TypeCodes) (err : ErrFlags) : DecodeResult → Report
  | .short present _ =>
    { flags := err.vector, type := none, declaredLen := none, presentLen := present, schemaLen := none,
      declaredCks := none, computedCks := none }
  | .record r =>
    { flags := err.vector
      type := some r.type
      declaredLen := some r.length
      presentLen := r.present
      schemaLen :=
        if frameType tc r.type = .setup ∧ r.length.toNat ≠ Config.setupLen then some Config.setupLen else none
      declaredCks := some r.declaredCks
      computedCks := some r.computedCks }

/-- `REPORT(ERR, r)`: one ERROR frame whose text is `ERR_TEXT(record)` (R208). The record is put out beside it. -/
def reportCondition (err : ErrFlags) (r : DecodeResult) (s : State) : State :=
  let record := reportRecord s.params.typeCode err r
  let s' := { s with port := { s.port with reports := s.port.reports ++ [record] } }
  sendError (Config.errText record) s'

/-- The flag set of an overflow report (R212). -/
def overflowFlags : ErrFlags := raiseOverflow .empty

/-- `OVERFLOW`: one ERROR frame with the fixed text (R212). -/
def overflowReport (s : State) : State := sendError Config.overflowText s

/-! Staging. -/

/-- `STAGE cfg`: a newer configuration overwrites an unapplied one (R209). -/
def stageCfg (cfg : SetupCfg) (s : State) : State :=
  { s with sr := { stagedValid := true, staged := cfg, stagedAtUs := s.nowUs } }

/-- A staged configuration has waited out its delay, equality included (R210). -/
def stagedDue (s : State) : Bool :=
  s.sr.stagedValid &&
    decide (s.sr.staged.activationDelayUs.toNat ≤ elapsedUs s.nowUs s.sr.stagedAtUs)

/-- `POLL_APPLY` (R210). -/
def pollStaged (s : State) : State :=
  if stagedDue s then
    let s' := applyCfg s.sr.staged s
    { s' with sr := { s'.sr with stagedValid := false } }
  else s

/-! Inbound frames. -/

/-- ECHO arm: the received bytes, when no flag is set (R88, R201). -/
def echoArm (r : FrameRecord) (s : State) : State × ErrFlags :=
  if r.err.isEmpty then (emit (rawOf r) s, r.err) else (s, r.err)

/-- The flag set of the SETUP arm: LENGTH_MISMATCH also when the declared length is not 10 (R202). -/
def setupErr (r : FrameRecord) : ErrFlags :=
  if r.length.toNat ≠ Config.setupLen then raiseLength r.err else r.err

/-- SETUP arm: stage and acknowledge when no flag is set, else nothing (R202). With no flag set the payload has 10 bytes,
so `decodeSetup` answers. -/
def setupArm (r : FrameRecord) (s : State) : State × ErrFlags :=
  let err := setupErr r
  if err.isEmpty then
    match decodeSetup r.payload with
    | some cfg => (sendAck (stageCfg cfg s), err)
    | none => (s, err)
  else (s, err)

/-- INPUTS, ERROR and TXT arms: recognized, not implemented inbound (R203, R205, R206). -/
def notImplementedArm (r : FrameRecord) (s : State) : State × ErrFlags := (s, raiseNotImplemented r.err)

/-- ACK arm: no further action (R204). -/
def ackArm (r : FrameRecord) (s : State) : State × ErrFlags := (s, r.err)

/-- The arm of any other type (R207). -/
def unknownArm (r : FrameRecord) (s : State) : State × ErrFlags := (s, raiseUnknownType r.err)

/-- The arm a message type selects (R200). -/
def armOf : FrameType → FrameRecord → State → State × ErrFlags
  | .echo => echoArm
  | .setup => setupArm
  | .inputs => notImplementedArm
  | .ack => ackArm
  | .error => notImplementedArm
  | .txt => notImplementedArm
  | .other => unknownArm

/-- An arm, then the report of the collected flags, if any (R200). -/
def runArm (arm : FrameRecord → State → State × ErrFlags) (r : FrameRecord) (s : State) : State × ErrFlags :=
  let (s', err) := arm r s
  (if err.isEmpty then s' else reportCondition err (.record r) s', err)

/-- `HANDLE` of a raw sequence shorter than a header: the flag set `DECODE` raised is reported, nothing is dispatched
(R200). -/
def handleShort (present : Nat) (err : ErrFlags) (s : State) : State × ErrFlags :=
  (reportCondition err (.short present err) s, err)

/-- `HANDLE raw`, with the flag set it returns (R200). -/
def handleFrame (raw : Bytes) (s : State) : State × ErrFlags :=
  match decodeFrame raw with
  | .short present err => handleShort present err s
  | .record r => runArm (armOf (frameType s.params.typeCode r.type)) r s

/-- Finish an operation that answers with a flag set. -/
def withFlags (p : State × ErrFlags) : State := withResult (.flags p.2) p.1

/-- One item of `SERVICE` (R215). -/
def handleItem (item : Item) (s : State) : State × ErrFlags :=
  match item with
  | .frame raw => handleFrame raw s
  | .overflow => (overflowReport s, overflowFlags)

/-- `SERVICE items`: each item in the order delivered (R215), with the flag set of each. -/
def serviceItems : List Item → State → State × List ErrFlags
  | [], s => (s, [])
  | item :: rest, s =>
    let (s', err) := handleItem item s
    let (s'', errs) := serviceItems rest s'
    (s'', err :: errs)

/-- `SERVICE items` with its result. -/
def serviceOp (items : List Item) (s : State) : State :=
  let (s', errs) := serviceItems items s
  withResult (.serviced errs) s'

/-! Sequencer. -/

/-- `(SEQ.phase + 1) mod 4` (R41, R214). -/
def nextPhase : Phase → Phase
  | .tick => .drain
  | .drain => .service
  | .service => .pollApply
  | .pollApply => .tick

/-- The 2-bit code of a phase (R38). -/
def phaseCode : Phase → BitVec 2
  | .tick => 0
  | .drain => 1
  | .service => 2
  | .pollApply => 3

/-- The end of a LOOP step (R214). -/
def advancePhase (s : State) : State := { s with phase := nextPhase s.phase }

/-- The operation a LOOP step performs (R214). SERVICE takes everything port `rx` holds (R94, P7; log 3). -/
def loopBody (s : State) : State :=
  match s.phase with
  | .tick => tickEngine s
  | .drain => drainLatch s
  | .service => serviceOp s.env.rx { s with env := { s.env with rx := [] } }
  | .pollApply => pollStaged s

/-- A LOOP operation named by its mnemonic: "the sequencer admits only the step of the current phase" (X3, R214). -/
def loopOperation (p : Phase) (op : State → State) (s : State) : Host.Outcome State Fault Refusal :=
  if s.phase = p then .next (advancePhase (op s.begin)) else .refused .outOfPhase

end Sys2Proof.Machine
end

