-- ==== Sys2Proof/Machine/Event.lean ====
section
/-!
DEFINITION. The meanings of the EVENT operations (spec R94): reset, clock, input edge, the control loop's four phases, the
LOOP step, and the sub-operations those perform, each as one operation of its own (log 8, log 9).
-/

namespace Sys2Proof.Machine

/-- `RESET` (R270). -/
def execReset (s : State) : Host.Outcome State Fault Refusal := .next (resetAll s.begin)

/-- `ADV d` (R21). -/
def execAdv (d : Nat) (s : State) : Host.Outcome State Fault Refusal := .next (advanceClock d s.begin)

/-- `EDGE ch level` (R160); on a channel without a handler "a model refuses it" (R161, X1). -/
def execEdge (ch : Nat) (level : Bool) (s : State) : Host.Outcome State Fault Refusal :=
  if channelPresent s ch then .next (edgeLatch ch level s.begin) else .refused .absentChannel

/-- `TICK`, the LOOP step of phase 0 (R123, R214). -/
def execTick (s : State) : Host.Outcome State Fault Refusal := loopOperation .tick tickEngine s

/-- `DRAIN`, the LOOP step of phase 1 (R163, R214). -/
def execDrain (s : State) : Host.Outcome State Fault Refusal := loopOperation .drain drainLatch s

/-- `SERVICE items`, the LOOP step of phase 2 with the items it names (R214, R215). -/
def execService (items : List Item) (s : State) : Host.Outcome State Fault Refusal :=
  loopOperation .service (serviceOp items) s

/-- `POLL_APPLY`, the LOOP step of phase 3 (R210, R214). -/
def execPollApply (s : State) : Host.Outcome State Fault Refusal := loopOperation .pollApply pollStaged s

/-- `LOOP_STEP`: the operation of the current phase, then the next phase (R214). -/
def execLoopStep (s : State) : Host.Outcome State Fault Refusal := .next (advancePhase (loopBody s.begin))

/-- `SNAPSHOT` (R162). -/
def execSnapshot (s : State) : Host.Outcome State Fault Refusal :=
  .next (withResult (.latch (snapshotLatch s).1 (snapshotLatch s).2) s.begin)

/-- `APPLY cfg` (R129): "every value of every field is accepted". -/
def execApply (cfg : SetupCfg) (s : State) : Host.Outcome State Fault Refusal := .next (applyCfg cfg s.begin)

/-- `BOUNDARY_COMMIT` (R128), refused outside its precondition `PE.wave_level = 0` (R9). -/
def execBoundaryCommit (s : State) : Host.Outcome State Fault Refusal :=
  if s.pe.waveLevel then .refused .commitWhileHigh else .next (boundaryCommit s.begin)

/-- `HANDLE raw` (R200). -/
def execHandle (raw : Bytes) (s : State) : Host.Outcome State Fault Refusal :=
  .next (withFlags (handleFrame raw s.begin))

/-- `STAGE cfg` (R209). -/
def execStage (cfg : SetupCfg) (s : State) : Host.Outcome State Fault Refusal := .next (stageCfg cfg s.begin)

/-- `REPORT(ERR, r)` (R208). -/
def execReport (err : ErrFlags) (r : DecodeResult) (s : State) : Host.Outcome State Fault Refusal :=
  .next (reportCondition err r s.begin)

/-- `OVERFLOW` (R212). -/
def execOverflow (s : State) : Host.Outcome State Fault Refusal :=
  .next (withFlags (overflowReport s.begin, overflowFlags))

end Sys2Proof.Machine
end

