-- ==== Sys2Proof/Machine/Func.lean ====
section
/-!
DEFINITION. The meanings of the FUNC operations (spec R121, R180 to R185): pure functions of their operands, which "read
and write no state element". Their value is the operation's result.
-/

namespace Sys2Proof.Machine

/-- A pure function's answer: no state element changes. -/
def pureResult (r : Result) (s : State) : Host.Outcome State Fault Refusal := .next (withResult r s.begin)

/-- `CHECKSUM payload` (R180). -/
def execChecksum (payload : Bytes) (s : State) : Host.Outcome State Fault Refusal :=
  pureResult (.byte (checksumOf payload)) s

/-- `DECODE raw` (R181). -/
def execDecode (raw : Bytes) (s : State) : Host.Outcome State Fault Refusal :=
  pureResult (.decoded (decodeFrame raw)) s

/-- `ENCODE type payload` (R182); more than 255 bytes are no valid call (X2). -/
def execEncode (type : Byte) (payload : Bytes) (s : State) : Host.Outcome State Fault Refusal :=
  if payload.length ≤ Config.maxPayload then pureResult (.bytes (encodeFrame type payload)) s
  else .refused .payloadTooLong

/-- `SETUP_DECODE payload` (R183), whose operand has 10 bytes. -/
def execSetupDecode (payload : Bytes) (s : State) : Host.Outcome State Fault Refusal :=
  match decodeSetup payload with
  | some cfg => pureResult (.setup cfg) s
  | none => .refused .setupPayloadLength

/-- `SETUP_ENCODE (d, l, r, f)` (R184). -/
def execSetupEncode (cfg : SetupCfg) (s : State) : Host.Outcome State Fault Refusal :=
  pureResult (.bytes (encodeSetup cfg)) s

/-- `INPUTS_ENCODE (t, c, b)` (R185). -/
def execInputsEncode (t c : Word) (b : Byte) (s : State) : Host.Outcome State Fault Refusal :=
  pureResult (.bytes (encodeInputs t c b)) s

/-- `half_period(r)`, "not defined for `r = 0`" (R121). -/
def execHalfPeriod (r : Byte) (s : State) : Host.Outcome State Fault Refusal :=
  if r = 0 then .refused .halfPeriodOfZero else pureResult (.micros (halfPeriodUs r)) s

end Sys2Proof.Machine
end

