-- ==== Sys2Proof/Machine/Rx.lean ====
section
/-!
DEFINITION. The meanings of the RX operations (spec R201 to R207, R181): `HANDLE` of one inbound frame of each type, from
its header and the payload bytes present. Performed inside SERVICE, so no phase is advanced (R200, R215; log 9).
-/

namespace Sys2Proof.Machine

/-- An inbound frame of the type with this code, handled by this arm (R200). -/
def inbound (arm : FrameRecord → State → State × ErrFlags) (type length cks : Byte) (payload : Bytes) (s : State) :
    Host.Outcome State Fault Refusal :=
  .next (withFlags (runArm arm (decodeRecord type length cks payload) s.begin))

/-- `RX.ECHO` (R201). -/
def execRxEcho (length cks : Byte) (payload : Bytes) (s : State) : Host.Outcome State Fault Refusal :=
  inbound echoArm s.params.typeCode.echo length cks payload s

/-- `RX.SETUP` (R202). -/
def execRxSetup (length cks : Byte) (payload : Bytes) (s : State) : Host.Outcome State Fault Refusal :=
  inbound setupArm s.params.typeCode.setup length cks payload s

/-- `RX.INPUTS` (R203). -/
def execRxInputs (length cks : Byte) (payload : Bytes) (s : State) : Host.Outcome State Fault Refusal :=
  inbound notImplementedArm s.params.typeCode.inputs length cks payload s

/-- `RX.ACK` (R204). -/
def execRxAck (length cks : Byte) (payload : Bytes) (s : State) : Host.Outcome State Fault Refusal :=
  inbound ackArm s.params.typeCode.ack length cks payload s

/-- `RX.ERROR` (R205). -/
def execRxError (length cks : Byte) (payload : Bytes) (s : State) : Host.Outcome State Fault Refusal :=
  inbound notImplementedArm s.params.typeCode.error length cks payload s

/-- `RX.TXT` (R206). -/
def execRxTxt (length cks : Byte) (payload : Bytes) (s : State) : Host.Outcome State Fault Refusal :=
  inbound notImplementedArm s.params.typeCode.txt length cks payload s

/-- `RX.UNKNOWN`, a type that is none of the six (R207); a recognized type is no term of this row (log 7). -/
def execRxUnknown (type length cks : Byte) (payload : Bytes) (s : State) : Host.Outcome State Fault Refusal :=
  if frameType s.params.typeCode type = .other then inbound unknownArm type length cks payload s
  else .refused .recognizedType

/-- `RX.SHORT`, fewer than three bytes (R181, R200); a longer sequence is no term of this row (log 7). -/
def execRxShort (raw : Bytes) (s : State) : Host.Outcome State Fault Refusal :=
  if raw.length < 3 then .next (withFlags (handleShort raw.length shortFlags s.begin)) else .refused .notShort

end Sys2Proof.Machine
end

