-- ==== Sys2Proof/Machine/Tx.lean ====
section
/-!
DEFINITION. The meanings of the TX operations (spec R86 to R90, R213): one outbound frame appended to the stream `tx`.
Nothing else changes.
-/

namespace Sys2Proof.Machine

/-- `TX.ECHO`: the bytes of a well-formed ECHO frame, unchanged (R88); no other bytes are ever echoed (R201). -/
def execTxEcho (raw : Bytes) (s : State) : Host.Outcome State Fault Refusal :=
  if isEchoFrame s.params.typeCode raw then .next (emit raw s.begin) else .refused .notEchoFrame

/-- `TX.ACK` (R87). -/
def execTxAck (s : State) : Host.Outcome State Fault Refusal := .next (sendAck s.begin)

/-- `TX.INPUTS` (R86). -/
def execTxInputs (t c : Word) (b : Byte) (s : State) : Host.Outcome State Fault Refusal :=
  .next (sendInputs t c b s.begin)

/-- `TX.ERROR` (R89); more than 255 bytes are no valid call (X2). -/
def execTxError (text : Bytes) (s : State) : Host.Outcome State Fault Refusal :=
  if text.length ≤ Config.maxPayload then .next (sendError text s.begin) else .refused .payloadTooLong

/-- `TX.TXT` (R90); more than 255 bytes are no valid call (X2). -/
def execTxTxt (text : Bytes) (s : State) : Host.Outcome State Fault Refusal :=
  if text.length ≤ Config.maxPayload then .next (sendText text s.begin) else .refused .payloadTooLong

end Sys2Proof.Machine
end

