-- ==== Sys2Proof/Machine/Dispatch.lean ====
section
/-!
DEFINITION. The dispatch: one arm per constructor of `Instr`, one direct call of its meaning.
-/

namespace Sys2Proof.Machine

def exec (i : Instr) (s : State) : Host.Outcome State Fault Refusal :=
  match i with
  | .reset => Sys2Proof.Machine.execReset s
  | .adv d => Sys2Proof.Machine.execAdv d s
  | .edge ch level => Sys2Proof.Machine.execEdge ch level s
  | .tick => Sys2Proof.Machine.execTick s
  | .drain => Sys2Proof.Machine.execDrain s
  | .service items => Sys2Proof.Machine.execService items s
  | .pollApply => Sys2Proof.Machine.execPollApply s
  | .loopStep => Sys2Proof.Machine.execLoopStep s
  | .snapshot => Sys2Proof.Machine.execSnapshot s
  | .apply cfg => Sys2Proof.Machine.execApply cfg s
  | .boundaryCommit => Sys2Proof.Machine.execBoundaryCommit s
  | .handle raw => Sys2Proof.Machine.execHandle raw s
  | .stage cfg => Sys2Proof.Machine.execStage cfg s
  | .report err r => Sys2Proof.Machine.execReport err r s
  | .overflow => Sys2Proof.Machine.execOverflow s
  | .rxEcho length cks payload => Sys2Proof.Machine.execRxEcho length cks payload s
  | .rxSetup length cks payload => Sys2Proof.Machine.execRxSetup length cks payload s
  | .rxInputs length cks payload => Sys2Proof.Machine.execRxInputs length cks payload s
  | .rxAck length cks payload => Sys2Proof.Machine.execRxAck length cks payload s
  | .rxError length cks payload => Sys2Proof.Machine.execRxError length cks payload s
  | .rxTxt length cks payload => Sys2Proof.Machine.execRxTxt length cks payload s
  | .rxUnknown type length cks payload => Sys2Proof.Machine.execRxUnknown type length cks payload s
  | .rxShort raw => Sys2Proof.Machine.execRxShort raw s
  | .txEcho raw => Sys2Proof.Machine.execTxEcho raw s
  | .txAck => Sys2Proof.Machine.execTxAck s
  | .txInputs t c b => Sys2Proof.Machine.execTxInputs t c b s
  | .txError text => Sys2Proof.Machine.execTxError text s
  | .txTxt text => Sys2Proof.Machine.execTxTxt text s
  | .checksum payload => Sys2Proof.Machine.execChecksum payload s
  | .decode raw => Sys2Proof.Machine.execDecode raw s
  | .encode type payload => Sys2Proof.Machine.execEncode type payload s
  | .setupDecode payload => Sys2Proof.Machine.execSetupDecode payload s
  | .setupEncode cfg => Sys2Proof.Machine.execSetupEncode cfg s
  | .inputsEncode t c b => Sys2Proof.Machine.execInputsEncode t c b s
  | .halfPeriod r => Sys2Proof.Machine.execHalfPeriod r s

end Sys2Proof.Machine
end

