-- ==== Sys2Proof/Machine/Fetch.lean ====
section
/-!
DEFINITION. How the machine finds its next operation: the head of the environment's turns, or a LOOP step where none is
listed (spec R5, R69, R214; log 2).
-/

namespace Sys2Proof.Machine

/-- The operation an agent's turn is (R5, R94). -/
def turnInstr : Turn → Instr
  | .rst => .reset
  | .clkAdv d => .adv d
  | .edge ch level => .edge ch level
  | .loop _ => .loopStep

/-- The items the host offers to port `rx` before the turn (R5, R43). -/
def turnOffers : Turn → List Item
  | .rst => []
  | .clkAdv _ => []
  | .edge _ _ => []
  | .loop offered => offered

/-- The turn that comes next: the LOOP agent's own where the environment lists none ("the loop never stops", R214). -/
def nextTurn (s : State) : Turn := s.env.turns.headD (.loop [])

/-- The state in which the next turn's operation runs: the turn is taken from the list, what it offers stands at port `rx`. -/
def takeTurn (s : State) : State :=
  { s with env := { rx := s.env.rx ++ turnOffers (nextTurn s), turns := s.env.turns.tail } }

/-- The state whose next step is a SERVICE step with the one item `FRAME(raw)` (R95: `RX <hex bytes>`). -/
def placeFrame (raw : Bytes) (s : State) : State :=
  { s with phase := .service, env := { rx := [.frame raw], turns := .loop [] :: s.env.turns } }

end Sys2Proof.Machine
end

