-- ==== Sys2Proof/Machine/Step.lean ====
section
/-!
DEFINITION. One step of the machine: the next agent's operation, whole (spec R5, R67, R69).
-/

namespace Sys2Proof.Machine

/-- One step: take the next turn and perform its operation. -/
def step (s : State) : Host.Outcome State Fault Refusal := exec (turnInstr (nextTurn s)) (takeTurn s)

/-- The state whose next step services exactly the inbound frame of the table word `w` (log 2, log 6). -/
def State.withFetchWord (s : State) (nbits w : Nat) : State := placeFrame (tableFrame nbits w) s

end Sys2Proof.Machine
end

