-- ==== Sys2Proof/Safety.lean ====
section
/-!
DEFINITION. What counts as a safe state and a safe run of the block: the invariants of spec R45 and of the parameters
(R6), and the runs the laws R131, R132, R136 and R164 speak of.
-/

namespace Sys2Proof.Machine

/-- R45 (a): rate 0 means the level is LOW, the source's STOPPED. -/
abbrev RateZeroIsLow (s : State) : Prop := s.pe.currentRateHz = 0 → s.pe.waveLevel = false

/-- R45 (b): every present output equals the wave level (R31). -/
abbrev OutputsFollowWave (s : State) : Prop := ∀ o ∈ s.out, o = none ∨ o = some s.pe.waveLevel

/-- R45 (c): a counter reset is pending only while the engine runs. -/
abbrev PendingOnlyRunning (s : State) : Prop := s.pe.resetPending = true → s.pe.currentRateHz ≠ 0

/-- R45 (d): the level is HIGH only while the engine runs. -/
abbrev HighOnlyRunning (s : State) : Prop := s.pe.waveLevel = true → s.pe.currentRateHz ≠ 0

/-- R45 (e): the latch bit of a channel without a pin is 0 (R32). -/
abbrev AbsentBitsClear (s : State) : Prop := ∀ ch : Fin 8, s.params.inPresent.getLsbD ch = false → s.il.bits.getLsbD ch = false

/-- The five invariants of R45 together. -/
abbrev BlockInvariant (s : State) : Prop :=
  RateZeroIsLow s ∧ OutputsFollowWave s ∧ PendingOnlyRunning s ∧ HighOnlyRunning s ∧ AbsentBitsClear s

/-- The ranges of the parameters (R6): `TYPE_CODE` is injective and `N_OUT` is at least 1. -/
abbrev LegalParameters (s : State) : Prop := s.params.typeCode.Injective ∧ s.out ≠ []

/-- The step from `s` to `s'` is not a RESET. -/
abbrev PlainStep (s s' : State) : Prop := step s = .next s' ∧ nextTurn s ≠ .rst

/-- A toggle tick: a step, not a RESET, that changes the wave level (spec glossary). -/
abbrev ToggleStep (s s' : State) : Prop := PlainStep s s' ∧ s'.pe.waveLevel ≠ s.pe.waveLevel

/-- A step, not a RESET, that leaves the wave level. -/
abbrev QuietStep (s s' : State) : Prop := PlainStep s s' ∧ s'.pe.waveLevel = s.pe.waveLevel

/-- A rising edge: a toggle tick that leaves the level HIGH (spec glossary). -/
abbrev RisingEdge (s s' : State) : Prop := s.pe.waveLevel = false ∧ s'.pe.waveLevel = true

/-- A run with no RESET in which no configuration is ever staged, with the number of its rising edges (R136). -/
inductive UndisturbedRun (s : State) : Nat → State → Prop where
  | start : UndisturbedRun s 0 s
  | rise (n : Nat) (a b : State) :
      UndisturbedRun s n a → PlainStep a b → b.sr.stagedValid = false → RisingEdge a b → UndisturbedRun s (n + 1) b
  | other (n : Nat) (a b : State) :
      UndisturbedRun s n a → PlainStep a b → b.sr.stagedValid = false → ¬ RisingEdge a b → UndisturbedRun s n b

/-- The turn is an input edge. -/
def isEdgeTurn : Turn → Bool
  | .rst => false
  | .clkAdv _ => false
  | .edge _ _ => true
  | .loop _ => false

/-- A step that is neither a RESET nor an input edge. -/
abbrev EdgeFreeStep (s s' : State) : Prop := PlainStep s s' ∧ isEdgeTurn (nextTurn s) = false

/-- The state without its port outputs: what an operation leaves in the block, its parameters and its environment. -/
abbrev State.block (s : State) : State := s.begin

/-- The operation an item of SERVICE is (R215). -/
def itemInstr : Item → Instr
  | .frame raw => .handle raw
  | .overflow => .overflow

end Sys2Proof.Machine
end

