-- ==== Sys2Proof/Certificates/Slice0/Obligations.lean ====
section
/-!
DEFINITION. The statements about the block. Each docstring names the rule or sentence of spec/ it formalises, and the log
entry or decision where a clause rests on a choice.
-/

open Sys2Proof Sys2Proof.Machine

/-! Reset, time, sequencer. -/

/-- R270 and the table of R20: RESET writes every element with its reset value. That the parameters, port `rx` and the
environment's turns stay is the model's choice (log 1, log 17); reset values by D3, D6, D8, D12, D16, D28, D30. -/
def Obligations.ResetWritesEveryElement : Prop :=
  ∀ s : State, ∃ t, exec .reset s = .next t ∧
    t.nowUs = 0 ∧ t.pe.waveLevel = false ∧ t.pe.currentRateHz = 0 ∧ t.pe.requestedRateHz = 0 ∧ t.pe.pulseLimit = 0 ∧
    t.pe.syncOnRisingEdge = false ∧ t.pe.pulseCount = 0xFFFFFFFF ∧ t.pe.lastToggleUs = 0 ∧ t.pe.syncAtUs = 0 ∧
    t.pe.syncValid = false ∧ t.pe.resetPending = false ∧ t.il.bits = 0 ∧ t.il.changedAtUs = 0 ∧
    t.il.lastObservedUs = 0 ∧ t.sr.stagedValid = false ∧ t.sr.staged = ⟨0, 0, 0, 0⟩ ∧ t.sr.stagedAtUs = 0 ∧
    phaseCode t.phase = 0 ∧ (∀ k, trigOut t k = (trigOut s k).map fun _ => false) ∧ t.out.length = s.out.length ∧
    t.params = s.params ∧ t.env = s.env ∧ t.port = Port.idle

/-- `State.reset` is what RESET leaves (R270), with the invariants of R45 and legal parameters. Its parameter values and its
empty environment are the model's choice (log 1, log 2). -/
def Obligations.ResetStateMeetsTheInvariants : Prop :=
  exec .reset State.reset = .next State.reset ∧ BlockInvariant State.reset ∧ LegalParameters State.reset ∧
    engineState State.reset.pe = .stopped

/-- R21 with D3: `ADV(d)` adds `d` microseconds modulo 2^32 and does nothing else; the clock is "advanced only by the CLK
agent", so no operation but ADV and RESET (R270) changes it. -/
def Obligations.AdvAloneAdvancesTheClock : Prop :=
  (∀ (s : State) (d : Nat), ∃ t, exec (.adv d) s = .next t ∧
    t.nowUs.toNat = (s.nowUs.toNat + d) % 2 ^ 32 ∧ t = { s with nowUs := t.nowUs, port := .idle }) ∧
  (∀ (i : Instr) (s t : State), exec i s = .next t → i ≠ .reset → (∀ d, i ≠ .adv d) → t.nowUs = s.nowUs)

/-- R122 with D4: the modular difference is the true elapsed time across one wrap of the clock. -/
def Obligations.ElapsedIsRightAcrossOneWrap : Prop :=
  ∀ t0 t1 : Nat, t0 ≤ t1 → t1 - t0 < 2 ^ 32 → elapsedUs (BitVec.ofNat 32 t1) (BitVec.ofNat 32 t0) = t1 - t0

/-- R41: `SEQ.phase` is the phase of the operation about to be performed (LOOP_STEP performs exactly that one; another
named LOOP operation is refused, X3), every LOOP step advances it by 1 modulo 4, and EDGE, ADV and RESET are not
sequenced by it. SERVICE takes what port `rx` holds (log 3). -/
def Obligations.LoopStepPerformsTheOperationOfThePhase : Prop :=
  ∀ s : State, ∃ t, exec .loopStep s = .next t ∧ phaseCode t.phase = phaseCode s.phase + 1 ∧
    exec .tick s = (if phaseCode s.phase = 0 then .next t else .refused .outOfPhase) ∧
    exec .drain s = (if phaseCode s.phase = 1 then .next t else .refused .outOfPhase) ∧
    exec (.service s.env.rx) { s with env := { s.env with rx := [] } } =
      (if phaseCode s.phase = 2 then .next t else .refused .outOfPhase) ∧
    exec .pollApply s = (if phaseCode s.phase = 3 then .next t else .refused .outOfPhase)

/-- R41 ("advanced by 1 modulo 4 by every LOOP step and by nothing else") and R270 (RESET writes 0). -/
def Obligations.PhaseAdvancesByLoopStepsAndNothingElse : Prop :=
  ∀ (i : Instr) (s t : State), exec i s = .next t →
    ((i = .tick ∨ i = .drain ∨ (∃ items, i = .service items) ∨ i = .pollApply ∨ i = .loopStep) →
      phaseCode t.phase = phaseCode s.phase + 1) ∧
    (i = .reset → phaseCode t.phase = 0) ∧
    ((i ≠ .tick ∧ i ≠ .drain ∧ (∀ items, i ≠ .service items) ∧ i ≠ .pollApply ∧ i ≠ .loopStep ∧ i ≠ .reset) →
      t.phase = s.phase)

/-! Pulse Engine. -/

/-- R123, step 1 (equality toggles: D4; floor: D5): at rate 0, or before a half-period has elapsed, TICK changes nothing;
only the phase moves on (R214). -/
def Obligations.TickBeforeTheHalfPeriodChangesNothing : Prop :=
  ∀ s : State, s.phase = .tick →
    (s.pe.currentRateHz = 0 ∨
      (s.nowUs - s.pe.lastToggleUs).toNat < 1000000 / (2 * s.pe.currentRateHz.toNat)) →
    exec .tick s = .next { s with phase := .drain, port := .idle }

/-- R124 to R127 on a rising edge, with the whole frame (D6 sentinel, D7 mark, D12 reference time, D13 order). -/
def Obligations.TickRisingEdge : Prop :=
  ∀ s : State, s.phase = .tick → s.pe.waveLevel = false → s.pe.currentRateHz ≠ 0 →
    1000000 / (2 * s.pe.currentRateHz.toNat) ≤ (s.nowUs - s.pe.lastToggleUs).toNat →
    exec .tick s = .next { s with
      phase := .drain
      port := .idle
      out := s.out.map (Option.map fun _ => true)
      pe := { s.pe with
        waveLevel := true
        lastToggleUs := s.nowUs
        pulseCount := s.pe.pulseCount + 1
        syncAtUs :=
          if s.pe.pulseCount = 0xFFFFFFFF ∧ s.pe.syncOnRisingEdge = true then s.nowUs else s.pe.syncAtUs
        syncValid :=
          if s.pe.pulseCount = 0xFFFFFFFF ∧ s.pe.syncOnRisingEdge = true then true else s.pe.syncValid
        requestedRateHz :=
          if s.pe.pulseLimit ≠ 0 ∧ s.pe.pulseLimit.toNat ≤ (s.pe.pulseCount + 1).toNat then 0
          else s.pe.requestedRateHz } }

/-- R124 to R128 on a falling edge, with the whole frame: the commit happens in the same tick (D7, D8, D11, D12, D13). -/
def Obligations.TickFallingEdge : Prop :=
  ∀ (s : State) (req : Byte), s.phase = .tick → s.pe.waveLevel = true → s.pe.currentRateHz ≠ 0 →
    1000000 / (2 * s.pe.currentRateHz.toNat) ≤ (s.nowUs - s.pe.lastToggleUs).toNat →
    req = (if s.pe.pulseLimit ≠ 0 ∧ s.pe.pulseLimit.toNat ≤ s.pe.pulseCount.toNat then 0 else s.pe.requestedRateHz) →
    exec .tick s = .next { s with
      phase := .drain
      port := .idle
      out := s.out.map (Option.map fun _ => false)
      pe := { s.pe with
        waveLevel := false
        lastToggleUs := s.nowUs
        requestedRateHz := req
        currentRateHz := req
        pulseCount := if s.pe.resetPending then 0xFFFFFFFF else s.pe.pulseCount
        syncAtUs := if s.pe.pulseCount = 0 ∧ s.pe.syncOnRisingEdge = false then s.nowUs else s.pe.syncAtUs
        syncValid :=
          if s.pe.resetPending then false
          else if s.pe.pulseCount = 0 ∧ s.pe.syncOnRisingEdge = false then true
          else s.pe.syncValid
        resetPending := false } }

/-- R128: BOUNDARY_COMMIT with the wave LOW, whole; with the wave HIGH it is outside its precondition and refused (R9,
log 7). D8, D11. -/
def Obligations.BoundaryCommitCommitsOnLow : Prop :=
  ∀ s : State,
    (s.pe.waveLevel = false →
      exec .boundaryCommit s = .next { s with
        port := .idle
        pe := { s.pe with
          currentRateHz := s.pe.requestedRateHz
          pulseCount := if s.pe.resetPending then 0xFFFFFFFF else s.pe.pulseCount
          syncValid := if s.pe.resetPending then false else s.pe.syncValid
          resetPending := false } }) ∧
    (s.pe.waveLevel = true → exec .boundaryCommit s = .refused .commitWhileHigh)

/-- R129: APPLY on a running engine writes the request, the limit and the polarity and keeps a pending reset; the current
rate, the counter, the level and the outputs stay. Immediate limit and polarity: D10; stickiness: D11. -/
def Obligations.ApplyWhileRunningOnlyRequests : Prop :=
  ∀ (s : State) (cfg : SetupCfg), s.pe.currentRateHz ≠ 0 →
    exec (.apply cfg) s = .next { s with
      port := .idle
      pe := { s.pe with
        requestedRateHz := cfg.targetPulseRateHz
        pulseLimit := cfg.pulseLimit
        syncOnRisingEdge := cfg.flags.getLsbD 1
        resetPending := s.pe.resetPending || cfg.flags.getLsbD 0 } }

/-- R129 on a stopped engine: the commit is made at once (D9), with the counter reset when one is asked or pending. -/
def Obligations.ApplyWhileStoppedCommitsAtOnce : Prop :=
  ∀ (s : State) (cfg : SetupCfg), s.pe.currentRateHz = 0 →
    exec (.apply cfg) s = .next { s with
      port := .idle
      pe := { s.pe with
        requestedRateHz := cfg.targetPulseRateHz
        currentRateHz := cfg.targetPulseRateHz
        pulseLimit := cfg.pulseLimit
        syncOnRisingEdge := cfg.flags.getLsbD 1
        pulseCount := if s.pe.resetPending || cfg.flags.getLsbD 0 then 0xFFFFFFFF else s.pe.pulseCount
        syncValid := if s.pe.resetPending || cfg.flags.getLsbD 0 then false else s.pe.syncValid
        resetPending := false } }

/-- The "written by" column of R20 for S1 to S10 and S18: only RESET, TICK (also as POLL_APPLY's or the LOOP step's), APPLY
and the boundary commit write the engine; of these only RESET and TICK write the level, the toggle time, the mark's time
and the outputs. -/
def Obligations.EngineWrittenOnlyByItsWriters : Prop :=
  ∀ (i : Instr) (s t : State), exec i s = .next t →
    ((i ≠ .reset ∧ i ≠ .tick ∧ i ≠ .loopStep) →
      t.pe.waveLevel = s.pe.waveLevel ∧ t.pe.lastToggleUs = s.pe.lastToggleUs ∧ t.pe.syncAtUs = s.pe.syncAtUs ∧
        t.out = s.out) ∧
    ((i ≠ .reset ∧ i ≠ .tick ∧ i ≠ .loopStep ∧ i ≠ .pollApply ∧ (∀ cfg, i ≠ .apply cfg) ∧ i ≠ .boundaryCommit) →
      t.pe = s.pe)

/-- R130 (its last row) and R132: outside RESET the current rate changes only on a falling edge, or when POLL_APPLY applies
to a stopped engine (D9) a staged configuration whose delay has elapsed (R210; D4). -/
def Obligations.RateChangesOnlyAtASafeBoundary : Prop :=
  ∀ s t : State, PlainStep s t → t.pe.currentRateHz ≠ s.pe.currentRateHz →
    (s.pe.waveLevel = true ∧ t.pe.waveLevel = false) ∨
      (s.pe.currentRateHz = 0 ∧ phaseCode s.phase = 3 ∧ s.sr.stagedValid = true ∧
        s.sr.staged.activationDelayUs.toNat ≤ (s.nowUs - s.sr.stagedAtUs).toNat ∧
        t.pe.currentRateHz = s.sr.staged.targetPulseRateHz ∧ t.pe.waveLevel = s.pe.waveLevel)

/-- R132, no truncated pulse: from a rising edge the current rate stays as it is, and not 0, through every run without a
RESET that keeps the level HIGH; and the falling edge that ends it comes no earlier than one half-period at that rate. -/
def Obligations.NoPulseIsTruncated : Prop :=
  ∀ s0 s1 s2 : State, PlainStep s0 s1 → RisingEdge s0 s1 → Relation.ReflTransGen QuietStep s1 s2 →
    s2.pe.currentRateHz = s0.pe.currentRateHz ∧ s2.pe.currentRateHz ≠ 0 ∧
    ∀ s3, PlainStep s2 s3 → s3.pe.waveLevel = false →
      1000000 / (2 * s0.pe.currentRateHz.toNat) ≤ (s2.nowUs - s0.nowUs).toNat

/-- R131, minimum spacing: two toggle ticks with no toggle and no RESET between them are at least a half-period, at the rate
in force at the second, apart (modulo 2^32, D4). -/
def Obligations.TogglesAreAHalfPeriodApart : Prop :=
  ∀ s0 s1 s2 s3 : State, ToggleStep s0 s1 → Relation.ReflTransGen QuietStep s1 s2 → ToggleStep s2 s3 →
    s2.pe.currentRateHz ≠ 0 ∧
      1000000 / (2 * s2.pe.currentRateHz.toNat) ≤ (s2.nowUs - s0.nowUs).toNat

/-- R136: from a running engine LOW at the sentinel with a limit N > 0 and no configuration staged, a run without RESET in
which nothing is staged has at most N + 1 rising edges, and when the engine has stopped it has exactly N + 1 with the
counter at N and the level LOW. -/
def Obligations.LimitNEmitsNPlusOnePulses : Prop :=
  ∀ (s t : State) (n : Nat), s.pe.waveLevel = false → s.pe.pulseCount = 0xFFFFFFFF → s.pe.currentRateHz ≠ 0 →
    s.pe.requestedRateHz = s.pe.currentRateHz → s.pe.pulseLimit ≠ 0 → s.pe.resetPending = false →
    s.sr.stagedValid = false → UndisturbedRun s n t →
    n ≤ s.pe.pulseLimit.toNat + 1 ∧
      (t.pe.currentRateHz = 0 →
        n = s.pe.pulseLimit.toNat + 1 ∧ t.pe.pulseCount = s.pe.pulseLimit ∧ t.pe.waveLevel = false)

/-- R121 with D5: `half_period(r)` is `floor(1 000 000 / (2 r))` for every r in 1..255 and is not defined at 0 (refused, log
7); it writes no state. -/
def Obligations.HalfPeriodIsTheFloor : Prop :=
  ∀ s : State,
    (∀ r : Byte, r ≠ 0 →
      exec (.halfPeriod r) s = .next { s with port := ⟨[], [], .micros (1000000 / (2 * r.toNat))⟩ }) ∧
    exec (.halfPeriod 0) s = .refused .halfPeriodOfZero

/-! Input Latch. -/

/-- R160: EDGE on a present channel sets or clears that channel's bit, keeps the other seven, stamps the time, and changes
nothing else. -/
def Obligations.EdgeWritesItsBitAndTheTime : Prop :=
  ∀ (s : State) (ch : Nat) (level : Bool), ch < 8 → s.params.inPresent.getLsbD ch = true →
    ∃ bits : Byte, (∀ k, k < 8 → bits.getLsbD k = if k = ch then level else s.il.bits.getLsbD k) ∧
      exec (.edge ch level) s =
        .next { s with il := { s.il with bits := bits, changedAtUs := s.nowUs }, port := .idle }

/-- R9 with R161, X1, R183, R207, R181 (log 7): outside its stated precondition a term is no operation and is refused by
name: EDGE on a channel above 7 or without a pin, SETUP_DECODE of other than 10 bytes, RX.UNKNOWN with one of the six types,
RX.SHORT with three bytes or more. -/
def Obligations.OperationsOutsideTheirPreconditionAreRefused : Prop :=
  ∀ s : State,
    (∀ (ch : Nat) (level : Bool), (8 ≤ ch ∨ s.params.inPresent.getLsbD ch = false) →
      exec (.edge ch level) s = .refused .absentChannel) ∧
    (∀ p : Bytes, p.length ≠ 10 → exec (.setupDecode p) s = .refused .setupPayloadLength) ∧
    (∀ (type length cks : Byte) (payload : Bytes), type ∈ s.params.typeCode.list →
      exec (.rxUnknown type length cks payload) s = .refused .recognizedType) ∧
    (∀ raw : Bytes, 3 ≤ raw.length → exec (.rxShort raw) s = .refused .notShort)

/-- R162: SNAPSHOT gives the latest pair and disturbs nothing. -/
def Obligations.SnapshotReadsThePairAndDisturbsNothing : Prop :=
  ∀ s : State, exec .snapshot s = .next { s with port := ⟨[], [], .latch s.il.bits s.il.changedAtUs⟩ }

/-- R163 with D15: DRAIN sends one INPUTS frame when the timestamp differs from the last observed one, and else nothing
(R165); the frame is the 12 bytes of R86 (D17), little-endian. -/
def Obligations.DrainSendsOneNotificationOrNone : Prop :=
  ∀ s : State, s.phase = .drain →
    (s.il.changedAtUs = s.il.lastObservedUs → exec .drain s = .next { s with phase := .service, port := .idle }) ∧
    (s.il.changedAtUs ≠ s.il.lastObservedUs →
      ∃ p : Bytes,
        p = [s.il.changedAtUs.extractLsb' 0 8, s.il.changedAtUs.extractLsb' 8 8, s.il.changedAtUs.extractLsb' 16 8,
          s.il.changedAtUs.extractLsb' 24 8, s.pe.pulseCount.extractLsb' 0 8, s.pe.pulseCount.extractLsb' 8 8,
          s.pe.pulseCount.extractLsb' 16 8, s.pe.pulseCount.extractLsb' 24 8, s.il.bits] ∧
        exec .drain s = .next { s with
          il := { s.il with lastObservedUs := s.il.changedAtUs }
          phase := .service
          port := ⟨[s.params.typeCode.inputs :: 9 :: p.sum :: p], [], .none⟩ })

/-- The "written by" column of R20 for S11 to S16: only EDGE and RESET write the latch pair, only DRAIN (also as the LOOP
step's) and RESET the last observed time, and only RESET, the handling of a SETUP (HANDLE, STAGE, also inside SERVICE and
the LOOP step) and POLL_APPLY the staging register. -/
def Obligations.LatchAndStagingWrittenOnlyByTheirWriters : Prop :=
  ∀ (i : Instr) (s t : State), exec i s = .next t →
    ((i ≠ .reset ∧ ∀ ch level, i ≠ .edge ch level) →
      t.il.bits = s.il.bits ∧ t.il.changedAtUs = s.il.changedAtUs) ∧
    ((i ≠ .reset ∧ i ≠ .drain ∧ i ≠ .loopStep) → t.il.lastObservedUs = s.il.lastObservedUs) ∧
    ((i ≠ .reset ∧ i ≠ .loopStep ∧ i ≠ .pollApply ∧ (∀ items, i ≠ .service items) ∧ (∀ raw, i ≠ .handle raw) ∧
      (∀ cfg, i ≠ .stage cfg) ∧ (∀ l c p, i ≠ .rxSetup l c p)) → t.sr = s.sr)

/-- R164: after a last edge, in a run without RESET or further edge, the next DRAIN sends at most one notification, and it
carries the bits that edge left and the time of that edge: never an earlier edge's, never a torn pair. It sends none only
when that time equals the last observed one (R165). -/
def Obligations.NotificationCarriesTheLastEdge : Prop :=
  ∀ (s0 s1 s2 s3 : State) (ch : Nat) (level : Bool) (offered : List Item),
    nextTurn s0 = .edge ch level → step s0 = .next s1 → Relation.ReflTransGen EdgeFreeStep s1 s2 →
    s2.phase = .drain → nextTurn s2 = .loop offered → step s2 = .next s3 →
    s1.il.bits.getLsbD ch = level ∧
      s3.port.tx =
        if s0.nowUs = s2.il.lastObservedUs then []
        else [inputsFrame s0.params.typeCode s0.nowUs s2.pe.pulseCount s1.il.bits]

/-- R67: an EDGE taken just before an operation that does not read the latch has the same effect as one taken just after it:
the same block is left, and the operation itself puts out the same frames, records and result. -/
def Obligations.EdgeBeforeOrAfterAnOperationIsTheSame : Prop :=
  ∀ (i : Instr) (ch : Nat) (level : Bool) (s a b : State), i ≠ .reset → (∀ d, i ≠ .adv d) → (∀ c l, i ≠ .edge c l) →
    i ≠ .snapshot → i ≠ .drain → (i = .loopStep → s.phase ≠ .drain) →
    exec i s = .next a → exec (.edge ch level) a = .next b →
    ∃ c d, exec (.edge ch level) s = .next c ∧ exec i c = .next d ∧ d.block = b.block ∧ d.port = a.port

/-! Codec. -/

/-- R180: the checksum is the sum of all payload bytes modulo 256; it writes no state. -/
def Obligations.ChecksumIsTheSumModulo256 : Prop :=
  ∀ (s : State) (payload : Bytes),
    exec (.checksum payload) s =
      .next { s with port := ⟨[], [], .byte (BitVec.ofNat 8 ((payload.map BitVec.toNat).sum % 256))⟩ }

/-- R186 (a), (b), (c): the checksum does not depend on the order of the bytes, and changing one byte to any other value
changes it. -/
def Obligations.ChecksumIgnoresOrderAndSeesAnyByteChange : Prop :=
  ∀ s : State,
    (∀ p q : Bytes, p.Perm q → exec (.checksum p) s = exec (.checksum q) s) ∧
    (∀ (p q : Bytes) (b c : Byte), b ≠ c → exec (.checksum (p ++ b :: q)) s ≠ exec (.checksum (p ++ c :: q)) s)

/-- R181 (D20, D21): DECODE reads the three header bytes, checks length and checksum independently over every byte present,
and answers SHORT with LENGTH_MISMATCH alone for fewer than three bytes; it writes no state. -/
def Obligations.DecodeChecksLengthAndChecksumIndependently : Prop :=
  ∀ (s : State),
    (∀ raw : Bytes, raw.length < 3 → exec (.decode raw) s = .next { s with
      port := ⟨[], [], .decoded (.short raw.length ⟨true, false, false, false, false⟩)⟩ }) ∧
    (∀ (type length cks : Byte) (payload : Bytes), ∃ r : FrameRecord,
      exec (.decode (type :: length :: cks :: payload)) s = .next { s with port := ⟨[], [], .decoded (.record r)⟩ } ∧
      r.type = type ∧ r.length = length ∧ r.declaredCks = cks ∧ r.payload = payload ∧ r.present = payload.length ∧
      r.computedCks = payload.sum ∧
      r.err = ⟨decide (length.toNat ≠ payload.length), decide (cks ≠ payload.sum), false, false, false⟩)

/-- R182 (D33): ENCODE fills length and checksum for every payload of at most 255 bytes and what it gives decodes to that
payload with no flag set; a longer payload is refused by name (log 7). -/
def Obligations.EncodeFillsAFrameThatDecodes : Prop :=
  ∀ (s : State) (type : Byte) (payload : Bytes),
    (payload.length ≤ 255 → ∃ (bs : Bytes) (r : FrameRecord),
      exec (.encode type payload) s = .next { s with port := ⟨[], [], .bytes bs⟩ } ∧
      bs = type :: BitVec.ofNat 8 payload.length :: payload.sum :: payload ∧
      decodeFrame bs = .record r ∧ r.type = type ∧ r.payload = payload ∧ r.err = .empty) ∧
    (255 < payload.length → exec (.encode type payload) s = .refused .payloadTooLong)

/-- R183: every one of the 2^80 payloads of 10 bytes decodes, its fields little-endian. -/
def Obligations.SetupDecodeReadsTheFourFields : Prop :=
  ∀ (s : State) (d0 d1 d2 d3 l0 l1 l2 l3 r f : Byte),
    exec (.setupDecode [d0, d1, d2, d3, l0, l1, l2, l3, r, f]) s =
      .next { s with port := ⟨[], [], .setup
        ⟨BitVec.ofNat 32 (d0.toNat + 256 * d1.toNat + 65536 * d2.toNat + 16777216 * d3.toNat),
         BitVec.ofNat 32 (l0.toNat + 256 * l1.toNat + 65536 * l2.toNat + 16777216 * l3.toNat), r, f⟩⟩ }

/-- R184's law: SETUP_ENCODE and SETUP_DECODE are inverse to each other, all eight flag bits kept (D27). -/
def Obligations.SetupRoundTrips : Prop :=
  ∀ s : State,
    (∀ p : Bytes, p.length = 10 → ∃ cfg,
      exec (.setupDecode p) s = .next { s with port := ⟨[], [], .setup cfg⟩ } ∧
      exec (.setupEncode cfg) s = .next { s with port := ⟨[], [], .bytes p⟩ }) ∧
    (∀ cfg : SetupCfg, ∃ p : Bytes, p.length = 10 ∧
      exec (.setupEncode cfg) s = .next { s with port := ⟨[], [], .bytes p⟩ } ∧
      exec (.setupDecode p) s = .next { s with port := ⟨[], [], .setup cfg⟩ })

/-- R185: the 9 bytes of an INPUTS payload, the two u32 fields little-endian, no state written. -/
def Obligations.InputsEncodeWritesTheThreeFields : Prop :=
  ∀ (s : State) (t c : Word) (b : Byte),
    exec (.inputsEncode t c b) s = .next { s with port := ⟨[], [], .bytes
      [t.extractLsb' 0 8, t.extractLsb' 8 8, t.extractLsb' 16 8, t.extractLsb' 24 8,
        c.extractLsb' 0 8, c.extractLsb' 8 8, c.extractLsb' 16 8, c.extractLsb' 24 8, b]⟩ }

/-! Inbound frames. -/

/-- R200 with R83: HANDLE of any raw sequence completes and is the inbound operation its bytes decode to. -/
def Obligations.HandleIsTheDecodedOperation : Prop :=
  ∀ (s : State) (raw : Bytes), ∃ t, exec (.handle raw) s = .next t ∧ exec (decodeRx s.params.typeCode raw) s = .next t

/-- R88: a well-formed ECHO frame of any payload comes back byte for byte, header included, and nothing else changes. -/
def Obligations.EchoRepliesVerbatim : Prop :=
  ∀ (s : State) (length cks : Byte) (payload : Bytes), length.toNat = payload.length → cks = payload.sum →
    exec (.rxEcho length cks payload) s =
      .next { s with port := ⟨[s.params.typeCode.echo :: length :: cks :: payload], [], .flags .empty⟩ }

/-- R204: an ACK has no further action: nothing changes; a well-formed one is answered by nothing, a malformed one is reported
with its length and checksum flags like any frame. -/
def Obligations.AckIsAcceptedWithNoFurtherAction : Prop :=
  ∀ (s : State) (length cks : Byte) (payload : Bytes) (err : ErrFlags) (rep : Report), s.params.typeCode.Injective →
    err = ⟨decide (length.toNat ≠ payload.length), decide (cks ≠ payload.sum), false, false, false⟩ →
    rep = ⟨err.vector, some s.params.typeCode.ack, some length, payload.length, none, some cks, some payload.sum⟩ →
    exec (.rxAck length cks payload) s = .next { s with
      port := if err = .empty then ⟨[], [], .flags .empty⟩
        else ⟨[encodeFrame s.params.typeCode.error (Config.errText rep)], [rep], .flags err⟩ }

/-- R201 with D22: a malformed ECHO is not echoed; it is reported with its length and checksum flags and the record of
R208. -/
def Obligations.MalformedEchoIsReported : Prop :=
  ∀ (s : State) (length cks : Byte) (payload : Bytes) (err : ErrFlags) (rep : Report), s.params.typeCode.Injective →
    err = ⟨decide (length.toNat ≠ payload.length), decide (cks ≠ payload.sum), false, false, false⟩ → err ≠ .empty →
    rep = ⟨err.vector, some s.params.typeCode.echo, some length, payload.length, none, some cks, some payload.sum⟩ →
    exec (.rxEcho length cks payload) s = .next { s with
      port := ⟨[encodeFrame s.params.typeCode.error (Config.errText rep)], [rep], .flags err⟩ }

/-- R202, R209 and R84 (D17, D24): a good SETUP is staged whole, its fields little-endian, and acknowledged with the empty
ACK; nothing else changes. -/
def Obligations.GoodSetupIsStagedAndAcknowledged : Prop :=
  ∀ (s : State) (d0 d1 d2 d3 l0 l1 l2 l3 r f cks : Byte),
    cks = d0 + d1 + d2 + d3 + l0 + l1 + l2 + l3 + r + f →
    exec (.rxSetup 10 cks [d0, d1, d2, d3, l0, l1, l2, l3, r, f]) s = .next { s with
      sr :=
        { stagedValid := true
          staged :=
            ⟨BitVec.ofNat 32 (d0.toNat + 256 * d1.toNat + 65536 * d2.toNat + 16777216 * d3.toNat),
             BitVec.ofNat 32 (l0.toNat + 256 * l1.toNat + 65536 * l2.toNat + 16777216 * l3.toNat), r, f⟩
          stagedAtUs := s.nowUs }
      port := ⟨[[s.params.typeCode.ack, 0, 0]], [], .flags .empty⟩ }

/-- R202 with D22: a SETUP whose declared length is not 10, or not the length present, or whose checksum disagrees, stages
nothing and gets no ACK; it is reported, with the schema length when the declared length is not 10 (R208, log 11). -/
def Obligations.BadSetupStagesNothing : Prop :=
  ∀ (s : State) (length cks : Byte) (payload : Bytes) (err : ErrFlags) (rep : Report), s.params.typeCode.Injective →
    err = ⟨decide (length ≠ 10 ∨ length.toNat ≠ payload.length), decide (cks ≠ payload.sum), false, false, false⟩ →
    err ≠ .empty →
    rep = ⟨err.vector, some s.params.typeCode.setup, some length, payload.length,
      if length = 10 then none else some 10, some cks, some payload.sum⟩ →
    exec (.rxSetup length cks payload) s = .next { s with
      port := ⟨[encodeFrame s.params.typeCode.error (Config.errText rep)], [rep], .flags err⟩ }

/-- R211: a good SETUP replaces whatever was staged: the state it leaves does not depend on the staging register before it,
so no field of the earlier configuration can take effect. -/
def Obligations.ReplacementForgetsTheEarlierSetup : Prop :=
  ∀ (s : State) (cks : Byte) (payload : Bytes) (earlier : Staging), payload.length = 10 → cks = payload.sum →
    exec (.rxSetup 10 cks payload) { s with sr := earlier } = exec (.rxSetup 10 cks payload) s

/-- R203 and R205: inbound INPUTS and ERROR always raise NOT_IMPLEMENTED, beside the flags of DECODE, and change no state. -/
def Obligations.InboundInputsAndErrorAreNotImplemented : Prop :=
  ∀ (s : State) (length cks : Byte) (payload : Bytes) (err : ErrFlags) (rep : Report), s.params.typeCode.Injective →
    err = ⟨decide (length.toNat ≠ payload.length), decide (cks ≠ payload.sum), true, false, false⟩ →
    (rep = ⟨err.vector, some s.params.typeCode.inputs, some length, payload.length, none, some cks, some payload.sum⟩ →
      exec (.rxInputs length cks payload) s = .next { s with
        port := ⟨[encodeFrame s.params.typeCode.error (Config.errText rep)], [rep], .flags err⟩ }) ∧
    (rep = ⟨err.vector, some s.params.typeCode.error, some length, payload.length, none, some cks, some payload.sum⟩ →
      exec (.rxError length cks payload) s = .next { s with
        port := ⟨[encodeFrame s.params.typeCode.error (Config.errText rep)], [rep], .flags err⟩ })

/-- R206, the spec's own decision D23: inbound TXT raises NOT_IMPLEMENTED likewise. -/
def Obligations.InboundTxtIsNotImplemented : Prop :=
  ∀ (s : State) (length cks : Byte) (payload : Bytes) (err : ErrFlags) (rep : Report), s.params.typeCode.Injective →
    err = ⟨decide (length.toNat ≠ payload.length), decide (cks ≠ payload.sum), true, false, false⟩ →
    rep = ⟨err.vector, some s.params.typeCode.txt, some length, payload.length, none, some cks, some payload.sum⟩ →
    exec (.rxTxt length cks payload) s = .next { s with
      port := ⟨[encodeFrame s.params.typeCode.error (Config.errText rep)], [rep], .flags err⟩ }

/-- R207: a type that is none of the six raises UNKNOWN_TYPE, beside the flags of DECODE, and changes no state. -/
def Obligations.UnrecognizedTypeIsReported : Prop :=
  ∀ (s : State) (type length cks : Byte) (payload : Bytes) (err : ErrFlags) (rep : Report),
    type ∉ s.params.typeCode.list →
    err = ⟨decide (length.toNat ≠ payload.length), decide (cks ≠ payload.sum), false, true, false⟩ →
    rep = ⟨err.vector, some type, some length, payload.length, none, some cks, some payload.sum⟩ →
    exec (.rxUnknown type length cks payload) s = .next { s with
      port := ⟨[encodeFrame s.params.typeCode.error (Config.errText rep)], [rep], .flags err⟩ }

/-- R181 and R200 with D20: fewer than three bytes raise LENGTH_MISMATCH alone, are not dispatched, and are reported.
That the operation answers with that flag set, where the pseudocode only returns, is the model's choice (log 10). -/
def Obligations.ShortFrameIsReportedAlone : Prop :=
  ∀ (s : State) (raw : Bytes) (rep : Report), raw.length < 3 →
    rep = ⟨0b00001, none, none, raw.length, none, none, none⟩ →
    exec (.rxShort raw) s = .next { s with port :=
      ⟨[encodeFrame s.params.typeCode.error (Config.errText rep)], [rep], .flags ⟨true, false, false, false, false⟩⟩ }

/-- R208 with D25: REPORT of any flag set and any result of DECODE sends one ERROR frame with the text of its record, and
changes no state. The record is determined whole: its flags are the vector of R91, each condition at its bit (D19), and its
schema length is 10 exactly when the type is SETUP and the declared length is not 10 (log 11). -/
def Obligations.ReportSendsTheTextOfItsRecord : Prop :=
  ∀ (s : State) (err : ErrFlags) (rep : Report),
    (∀ (n : Nat) (e : ErrFlags), rep = ⟨err.vector, none, none, n, none, none, none⟩ →
      exec (.report err (.short n e)) s = .next { s with
        port := ⟨[encodeFrame s.params.typeCode.error (Config.errText rep)], [rep], .none⟩ }) ∧
    (∀ f : FrameRecord,
      rep = ⟨err.vector, some f.type, some f.length, f.present,
        if frameType s.params.typeCode f.type = .setup ∧ f.length ≠ 10 then some 10 else none,
        some f.declaredCks, some f.computedCks⟩ →
      exec (.report err (.record f)) s = .next { s with
        port := ⟨[encodeFrame s.params.typeCode.error (Config.errText rep)], [rep], .none⟩ }) ∧
    err.vector.getLsbD 0 = err.lengthMismatch ∧ err.vector.getLsbD 1 = err.checksumMismatch ∧
    err.vector.getLsbD 2 = err.notImplemented ∧ err.vector.getLsbD 3 = err.unknownType ∧
    err.vector.getLsbD 4 = err.transportOverflow

/-- R212 with D32: OVERFLOW sends one ERROR frame with the fixed text and changes no state. That it answers with its flag
set is the model's choice (log 10). -/
def Obligations.OverflowSendsTheFixedText : Prop :=
  ∀ s : State, exec .overflow s = .next { s with
    port := ⟨[encodeFrame s.params.typeCode.error Config.overflowText], [], .flags ⟨false, false, false, false, true⟩⟩ }

/-- R241: a HANDLE that raises a condition, whatever the bytes, and an OVERFLOW change no state element: all they do is one
ERROR frame, and the flag set they answer with. That HANDLE of a short frame, and OVERFLOW, answer with the flag set the
condition entered is the model's choice (log 10). -/
def Obligations.RaisingAConditionChangesNoState : Prop :=
  (∀ (s t : State) (raw : Bytes) (err : ErrFlags), exec (.handle raw) s = .next t → t.port.result = .flags err →
    err ≠ .empty → t.block = s.block ∧ ∃ rep, t.port.reports = [rep] ∧ rep.flags = err.vector ∧
      t.port.tx = [encodeFrame s.params.typeCode.error (Config.errText rep)]) ∧
  (∀ s : State, ∃ t, exec .overflow s = .next t ∧ t.block = s.block ∧
    t.port.result = .flags ⟨false, false, false, false, true⟩ ∧
    t.port.tx = [encodeFrame s.params.typeCode.error Config.overflowText])

/-- R242: the combinations of conditions one HANDLE can raise: never two of NOT_IMPLEMENTED and UNKNOWN_TYPE together, never
TRANSPORT_OVERFLOW, and LENGTH_MISMATCH alone for a frame shorter than the header (D20). That HANDLE of such a frame
answers with its flag set is the model's choice (log 10). -/
def Obligations.ConditionsThatOccurTogether : Prop :=
  ∀ (s t : State) (raw : Bytes), exec (.handle raw) s = .next t → ∃ err, t.port.result = .flags err ∧
    (err.notImplemented && err.unknownType) = false ∧ err.transportOverflow = false ∧
    (raw.length < 3 → err = ⟨true, false, false, false, false⟩)

/-- R215 and R200: SERVICE handles its items in order, each as HANDLE or OVERFLOW on the state the one before left, the
frames in order; with no item it only advances the phase. Two clauses are the model's choice, not a rule's: that SERVICE
answers with the list of its items' flag sets, here the empty one (log 10: the spec names no value for it), and that the
named SERVICE leaves port `rx` as it is (log 3). -/
def Obligations.ServiceHandlesItsItemsInOrder : Prop :=
  ∀ s : State, s.phase = .service →
    exec (.service []) s = .next { s with phase := .pollApply, port := ⟨[], [], .serviced []⟩ } ∧
    ∀ (item : Item) (rest : List Item), ∃ a b t,
      exec (itemInstr item) s = .next a ∧ exec (.service rest) a = .next b ∧
      exec (.service (item :: rest)) s = .next t ∧ t.block = b.block ∧
      t.port.tx = a.port.tx ++ b.port.tx ∧ t.port.reports = a.port.reports ++ b.port.reports

/-! Staging. -/

/-- R209: STAGE holds the configuration with its receipt time, over whatever was staged. -/
def Obligations.StageOverwritesAndRestartsTheDelay : Prop :=
  ∀ (s : State) (cfg : SetupCfg), exec (.stage cfg) s = .next { s with
    sr := { stagedValid := true, staged := cfg, stagedAtUs := s.nowUs }, port := .idle }

/-- R210 (D4, D26): a staged configuration whose delay has elapsed is applied, as APPLY does, and consumed; else POLL_APPLY
changes nothing but the phase. -/
def Obligations.PollApplyAppliesOnceWhenDue : Prop :=
  ∀ s : State, s.phase = .pollApply →
    ((s.sr.stagedValid = true ∧ s.sr.staged.activationDelayUs.toNat ≤ (s.nowUs - s.sr.stagedAtUs).toNat) →
      ∃ a, exec (.apply s.sr.staged) s = .next a ∧
        exec .pollApply s = .next { a with phase := .tick, sr := { s.sr with stagedValid := false } }) ∧
    ((s.sr.stagedValid = false ∨ (s.nowUs - s.sr.stagedAtUs).toNat < s.sr.staged.activationDelayUs.toNat) →
      exec .pollApply s = .next { s with phase := .tick, port := .idle })

/-! Outbound frames. -/

/-- R86 to R90, R213 (D17, D24, D33): what each outbound operation appends to the stream, whole. TX.ECHO appends a
well-formed ECHO frame as it is, and bytes that are none are refused; a text of more than 255 bytes is refused (X2, log 7). -/
def Obligations.OutboundBuildersEmitTheirFrame : Prop :=
  ∀ s : State,
    exec .txAck s = .next { s with port := ⟨[[s.params.typeCode.ack, 0, 0]], [], .none⟩ } ∧
    (∀ (t c : Word) (b : Byte), ∃ p : Bytes,
      p = [t.extractLsb' 0 8, t.extractLsb' 8 8, t.extractLsb' 16 8, t.extractLsb' 24 8,
        c.extractLsb' 0 8, c.extractLsb' 8 8, c.extractLsb' 16 8, c.extractLsb' 24 8, b] ∧
      exec (.txInputs t c b) s =
        .next { s with port := ⟨[s.params.typeCode.inputs :: 9 :: p.sum :: p], [], .none⟩ }) ∧
    (∀ text : Bytes, text.length ≤ 255 →
      exec (.txError text) s = .next { s with
        port := ⟨[s.params.typeCode.error :: BitVec.ofNat 8 text.length :: text.sum :: text], [], .none⟩ } ∧
      exec (.txTxt text) s = .next { s with
        port := ⟨[s.params.typeCode.txt :: BitVec.ofNat 8 text.length :: text.sum :: text], [], .none⟩ }) ∧
    (∀ text : Bytes, 255 < text.length →
      exec (.txError text) s = .refused .payloadTooLong ∧ exec (.txTxt text) s = .refused .payloadTooLong) ∧
    (∀ (length cks : Byte) (payload : Bytes), length.toNat = payload.length → cks = payload.sum →
      exec (.txEcho (s.params.typeCode.echo :: length :: cks :: payload)) s =
        .next { s with port := ⟨[s.params.typeCode.echo :: length :: cks :: payload], [], .none⟩ }) ∧
    (∀ (type length cks : Byte) (payload : Bytes),
      (type ≠ s.params.typeCode.echo ∨ length.toNat ≠ payload.length ∨ cks ≠ payload.sum) →
      exec (.txEcho (type :: length :: cks :: payload)) s = .refused .notEchoFrame) ∧
    (∀ raw : Bytes, raw.length < 3 → exec (.txEcho raw) s = .refused .notEchoFrame)

/-- R182, R201 and R213 over every operation: every frame any operation puts on the stream is well-formed, its length and
checksum right, whatever the open texts are (log 5). -/
def Obligations.EveryEmittedFrameIsWellFormed : Prop :=
  ∀ (i : Instr) (s t : State), exec i s = .next t → ∀ f ∈ t.port.tx,
    ∃ r, decodeFrame f = .record r ∧ r.err = .empty ∧ r.payload.length ≤ 255

/-! Encoding. -/

/-- R81 to R90: for every injective `TYPE_CODE`, the bytes of every well-formed operation that has bytes decode, on its own
port, to that operation. -/
def Obligations.DecodingAnEncodedOperationGivesItBack : Prop :=
  ∀ (tc : TypeCodes) (i : Instr) (d : Direction) (bs : Bytes), tc.Injective → i.wellFormed tc = true →
    i.direction = some d → encode tc i = some bs → decode d tc bs = .ok i

/-- R93 and R200: every raw sequence of any length is a well-formed inbound operation and encodes to itself, and what the
outbound decoder accepts encodes to itself too: no byte has two readings. -/
def Obligations.EncodingADecodedFrameGivesItBack : Prop :=
  ∀ (tc : TypeCodes) (raw : Bytes),
    ((decodeRx tc raw).wellFormed tc = true ∧ encode tc (decodeRx tc raw) = some raw) ∧
    ∀ i, tc.Injective → decodeTx tc raw = .ok i → i.wellFormed tc = true ∧ encode tc i = some raw

/-- R83 and R96 on a few words of the opcode table: `type` in bits 23..16, `length` in 15..8, `checksum` in 7..0. -/
def Obligations.TableWordsDecodeToTheirRow : Prop :=
  decodeTableWord 24 0x000203 = some (.rxEcho 2 3 [0, 0]) ∧
  decodeTableWord 24 0x010A0F = some (.rxSetup 0x0A 0x0F [0, 0, 0, 0, 0, 0, 0, 0, 0, 0]) ∧
  decodeTableWord 24 0x020000 = some (.rxInputs 0 0 []) ∧ decodeTableWord 24 0x030000 = some (.rxAck 0 0 []) ∧
  decodeTableWord 24 0x0401AB = some (.rxError 1 0xAB [0]) ∧ decodeTableWord 24 0x050100 = some (.rxTxt 1 0 [0]) ∧
  decodeTableWord 24 0x7F0005 = some (.rxUnknown 0x7F 0 5 []) ∧ decodeTableWord 16 0x010A = some (.rxShort [1, 0x0A])

/-! The machine's step. -/

/-- R5, R69, R214 (log 2): a step performs exactly one operation, that of the next listed turn, or a LOOP step where none is
listed; what the host offers stands at port `rx` first. -/
def Obligations.StepPerformsTheNextTurn : Prop :=
  ∀ (s : State) (rest : List Turn),
    (s.env.turns = [] → step s = exec .loopStep s) ∧
    (s.env.turns = .rst :: rest → step s = exec .reset { s with env := { s.env with turns := rest } }) ∧
    (∀ d, s.env.turns = .clkAdv d :: rest → step s = exec (.adv d) { s with env := { s.env with turns := rest } }) ∧
    (∀ ch level, s.env.turns = .edge ch level :: rest →
      step s = exec (.edge ch level) { s with env := { s.env with turns := rest } }) ∧
    (∀ offered, s.env.turns = .loop offered :: rest →
      step s = exec .loopStep { s with env := { rx := s.env.rx ++ offered, turns := rest } })

/-- R200, R214 and R215 (log 2): where the LOOP agent steps in the SERVICE phase and port `rx` holds one frame, the step runs
the operation the frame's bytes decode to, and moves the phase on. The model's choice, not a rule's: the turn that offers
nothing (log 2), that the step takes all that port `rx` holds (log 3), and that SERVICE answers with the list of its items'
flag sets, here that of the one frame (log 10: the spec names no value for it). -/
def Obligations.StepRunsTheDecodedFrame : Prop :=
  ∀ (s : State) (raw : Bytes) (i : Instr), s.phase = .service → s.env.rx = [.frame raw] → nextTurn s = .loop [] →
    decode .rx s.params.typeCode raw = .ok i → i.wellFormed s.params.typeCode = true →
    ∃ t err, exec i { s with env := { rx := [], turns := s.env.turns.tail } } = .next t ∧ t.port.result = .flags err ∧
      step s = .next { t with phase := .pollApply, port := { t.port with result := .serviced [err] } }

/-- R9 ("the outcome of an operation is always a next state"): a step always completes, unless the environment raises an
edge on a channel that has no handler (R161, log 7). -/
def Obligations.EveryStepCompletes : Prop :=
  ∀ s : State, (∀ ch level, nextTurn s = .edge ch level → ch < 8 ∧ s.params.inPresent.getLsbD ch = true) →
    ∃ t, step s = .next t

/-- R45: every step of the machine, from every state that meets the five invariants, leaves a state that meets them. -/
def Obligations.EveryStepKeepsTheBlockInvariant : Prop :=
  ∀ s t : State, BlockInvariant s → step s = .next t → BlockInvariant t

/-- R39 and R250: no operation changes a parameter: `IN_PRESENT`, `TYPE_CODE`, the number of output channels and which of
them have a pin (log 1). -/
def Obligations.ParametersNeverChange : Prop :=
  ∀ (i : Instr) (s t : State), exec i s = .next t → t.params = s.params ∧
    t.out.map Option.isSome = s.out.map Option.isSome
end

