-- ==== Sys2Proof/Laws/Codec.lean ====
section
/-!
SUPPORT. The small lemmas of the codec: little-endian assembly, checksum, frames, payload lengths, flag sets.
-/

namespace Sys2Proof.Machine

/-! Little-endian assembly (R92). -/

@[simp] theorem leBytes_length (n v : Nat) : (leBytes n v).length = n := by
  induction n generalizing v with
  | zero => rfl
  | succ n ih => simp [leBytes, ih]

theorem leValue_leBytes (n v : Nat) : leValue (leBytes n v) = v % 256 ^ n := by
  induction n generalizing v with
  | zero => simp [leBytes, leValue, Nat.mod_one]
  | succ n ih =>
    simp only [leBytes, leValue, ih, BitVec.toNat_ofNat, pow_succ']
    exact (Nat.mod_mul).symm

theorem leBytes_leValue (bs : Bytes) : leBytes bs.length (leValue bs) = bs := by
  induction bs with
  | nil => rfl
  | cons b bs ih =>
    have h : (b.toNat + 256 * leValue bs) / 256 = leValue bs := by have := b.isLt; omega
    simp only [List.length_cons, leBytes, leValue, h, ih, List.cons.injEq, and_true]
    apply BitVec.eq_of_toNat_eq
    simp; omega

/-- A u32 is its four bytes, least significant first (R92). -/
theorem leBytes_four (v : Word) : leBytes 4 v.toNat =
    [v.extractLsb' 0 8, v.extractLsb' 8 8, v.extractLsb' 16 8, v.extractLsb' 24 8] := by
  simp only [leBytes, List.cons.injEq, and_true]
  refine ⟨?_, ?_, ?_, ?_⟩ <;> apply BitVec.eq_of_toNat_eq <;> simp [Nat.shiftRight_eq_div_pow, Nat.div_div_eq_div_mul]

theorem leBytes_one (b : Byte) : leBytes 1 b.toNat = [b] := by simp [leBytes]

/-! Checksum (R180). -/

@[simp] theorem checksumOf_nil : checksumOf [] = 0 := rfl

theorem checksumOf_eq_sum (p : Bytes) : checksumOf p = p.sum := List.sum_eq_foldl.symm

@[simp] theorem checksumOf_cons (b : Byte) (p : Bytes) : checksumOf (b :: p) = b + checksumOf p := by
  simp [checksumOf_eq_sum]

@[simp] theorem checksumOf_append (p q : Bytes) : checksumOf (p ++ q) = checksumOf p + checksumOf q := by
  simp [checksumOf_eq_sum]

/-! Flag sets (R91). -/

@[simp] theorem errFlags_empty_isEmpty : ErrFlags.empty.isEmpty = true := rfl

theorem errFlags_isEmpty_iff (e : ErrFlags) : e.isEmpty = true ↔ e = .empty := by
  rcases e with ⟨_ | _, _ | _, _ | _, _ | _, _ | _⟩ <;> decide

@[simp] theorem shortFlags_eq : shortFlags = ⟨true, false, false, false, false⟩ := rfl

@[simp] theorem raiseNotImplemented_isEmpty (e : ErrFlags) : (raiseNotImplemented e).isEmpty = false := by
  simp [raiseNotImplemented, ErrFlags.isEmpty]

@[simp] theorem raiseUnknownType_isEmpty (e : ErrFlags) : (raiseUnknownType e).isEmpty = false := by
  simp [raiseUnknownType, ErrFlags.isEmpty]

@[simp] theorem raiseLength_isEmpty (e : ErrFlags) : (raiseLength e).isEmpty = false := by
  simp [raiseLength, ErrFlags.isEmpty]

/-! Frames (R81, R181, R182). -/

@[simp] theorem decodeFrame_cons (t l c : Byte) (p : Bytes) :
    decodeFrame (t :: l :: c :: p) = .record (decodeRecord t l c p) := rfl

/-- DECODE of fewer than three bytes: SHORT with `LENGTH_MISMATCH` (R181). -/
theorem decodeFrame_short (raw : Bytes) (h : raw.length < 3) : decodeFrame raw = .short raw.length shortFlags := by
  match raw, h with
  | [], _ => rfl
  | [_], _ => rfl
  | [_, _], _ => rfl
  | _ :: _ :: _ :: _, h => simp at h; omega

@[simp] theorem rawOf_decodeRecord (t l c : Byte) (p : Bytes) : rawOf (decodeRecord t l c p) = t :: l :: c :: p := rfl

@[simp] theorem decodeRecord_type (t l c : Byte) (p : Bytes) : (decodeRecord t l c p).type = t := rfl
@[simp] theorem decodeRecord_length (t l c : Byte) (p : Bytes) : (decodeRecord t l c p).length = l := rfl
@[simp] theorem decodeRecord_declaredCks (t l c : Byte) (p : Bytes) : (decodeRecord t l c p).declaredCks = c := rfl
@[simp] theorem decodeRecord_payload (t l c : Byte) (p : Bytes) : (decodeRecord t l c p).payload = p := rfl
@[simp] theorem decodeRecord_present (t l c : Byte) (p : Bytes) : (decodeRecord t l c p).present = p.length := rfl
@[simp] theorem decodeRecord_computedCks (t l c : Byte) (p : Bytes) :
    (decodeRecord t l c p).computedCks = checksumOf p := rfl

/-- The flags of DECODE: length and checksum, independently (R181). -/
@[simp] theorem decodeRecord_err (t l c : Byte) (p : Bytes) :
    (decodeRecord t l c p).err = ⟨decide (l.toNat ≠ p.length), decide (c ≠ checksumOf p), false, false, false⟩ := by
  unfold decodeRecord
  by_cases h1 : l.toNat = p.length <;> by_cases h2 : c = checksumOf p <;>
    simp [h1, h2, raiseLength, raiseChecksum, ErrFlags.empty]

/-- A record has no flag exactly when declared and actual length and checksum agree (R181). -/
theorem decodeRecord_isEmpty_iff (t l c : Byte) (p : Bytes) :
    (decodeRecord t l c p).err.isEmpty = true ↔ l.toNat = p.length ∧ c = checksumOf p := by
  rw [decodeRecord_err]
  simp only [ErrFlags.isEmpty, Bool.or_false, Bool.not_eq_true', Bool.or_eq_false_iff, decide_eq_false_iff_not, not_not]

/-- What ENCODE builds has no flag when the payload fits the `length` byte (R182). -/
theorem decodeFrame_encodeFrame (t : Byte) (p : Bytes) (h : p.length ≤ 255) :
    ∃ r, decodeFrame (encodeFrame t p) = .record r ∧ r.type = t ∧ r.payload = p ∧ r.err = .empty := by
  refine ⟨_, rfl, rfl, rfl, ?_⟩
  have h8 : (BitVec.ofNat 8 p.length).toNat = p.length := by simp; omega
  exact (errFlags_isEmpty_iff _).1 ((decodeRecord_isEmpty_iff ..).2 ⟨h8, rfl⟩)

/-! Payloads (R183 to R185). -/

@[simp] theorem memRead_of_le (buf : Bytes) (off n : Nat) (h : off + n ≤ buf.length) :
    memRead buf off n = some (leValue ((buf.drop off).take n)) := by simp [memRead, h]

theorem encodeSetup_eq (cfg : SetupCfg) :
    encodeSetup cfg = leBytes 4 cfg.activationDelayUs.toNat ++ leBytes 4 cfg.pulseLimit.toNat ++
      leBytes 1 cfg.targetPulseRateHz.toNat ++ leBytes 1 cfg.flags.toNat := rfl

theorem encodeInputs_eq (t c : Word) (b : Byte) :
    encodeInputs t c b = leBytes 4 t.toNat ++ leBytes 4 c.toNat ++ leBytes 1 b.toNat := rfl

@[simp] theorem encodeSetup_length (cfg : SetupCfg) : (encodeSetup cfg).length = 10 := by simp [encodeSetup_eq]

@[simp] theorem encodeInputs_length (t c : Word) (b : Byte) : (encodeInputs t c b).length = 9 := by
  simp [encodeInputs_eq]

/-- The nine bytes of an INPUTS payload (R86, R185). -/
theorem encodeInputs_bytes (t c : Word) (b : Byte) : encodeInputs t c b =
    [t.extractLsb' 0 8, t.extractLsb' 8 8, t.extractLsb' 16 8, t.extractLsb' 24 8,
      c.extractLsb' 0 8, c.extractLsb' 8 8, c.extractLsb' 16 8, c.extractLsb' 24 8, b] := by
  simp [encodeInputs_eq, leBytes_four, leBytes_one]

/-- SETUP_DECODE reads the four fields of ten bytes (R183). -/
theorem decodeSetup_ten (d0 d1 d2 d3 l0 l1 l2 l3 r f : Byte) :
    decodeSetup [d0, d1, d2, d3, l0, l1, l2, l3, r, f] =
      some ⟨BitVec.ofNat 32 (leValue [d0, d1, d2, d3]), BitVec.ofNat 32 (leValue [l0, l1, l2, l3]), r, f⟩ := by
  simp [decodeSetup, memRead, Config.setupLen, leValue]

theorem decodeSetup_none (p : Bytes) (h : p.length ≠ 10) : decodeSetup p = none := by
  simp [decodeSetup, Config.setupLen, h]

/-- Ten bytes always decode (R183). -/
theorem decodeSetup_isSome (p : Bytes) (h : p.length = 10) : ∃ cfg, decodeSetup p = some cfg := by
  simp [decodeSetup, Config.setupLen, h, memRead]

/-- The open texts fit a frame (R6). -/
theorem errText_length (r : Report) : (Config.errText r).length ≤ 255 := by
  simp [Config.errText, Config.maxPayload]

theorem overflowText_length : Config.overflowText.length ≤ 255 := by
  simp [Config.overflowText, Config.maxPayload]

end Sys2Proof.Machine

namespace Sys2Proof

/-! The type byte (R83). -/

/-- The type lookup names one of the six exactly at its code, under an injective assignment. -/
theorem frameType_of_injective (tc : TypeCodes) (h : tc.Injective) :
    frameType tc tc.echo = .echo ∧ frameType tc tc.setup = .setup ∧ frameType tc tc.inputs = .inputs ∧
      frameType tc tc.ack = .ack ∧ frameType tc tc.error = .error ∧ frameType tc tc.txt = .txt := by
  simp only [TypeCodes.Injective, TypeCodes.list, List.nodup_cons, List.mem_cons, List.not_mem_nil, not_or] at h
  obtain ⟨⟨h1, h2, h3, h4, h5, -⟩, ⟨h6, h7, h8, h9, -⟩, ⟨h10, h11, h12, -⟩, ⟨h13, h14, -⟩, ⟨h15, -⟩, -⟩ := h
  simp [frameType, Ne.symm h1, Ne.symm h2, Ne.symm h3, Ne.symm h4, Ne.symm h5, Ne.symm h6, Ne.symm h7, Ne.symm h8,
    Ne.symm h9, Ne.symm h10, Ne.symm h11, Ne.symm h12, Ne.symm h13, Ne.symm h14, Ne.symm h15]

/-- A type byte is none of the six exactly when it is not in the assignment's list. -/
theorem frameType_other_iff (tc : TypeCodes) (b : Byte) : frameType tc b = .other ↔ b ∉ tc.list := by
  simp only [frameType, TypeCodes.list, List.mem_cons, List.not_mem_nil, or_false]
  split_ifs <;> simp_all

/-- What each answer of the type lookup says of the byte. -/
theorem frameType_cases (tc : TypeCodes) (b : Byte) :
    (frameType tc b = .echo ∧ b = tc.echo) ∨ (frameType tc b = .setup ∧ b = tc.setup) ∨
    (frameType tc b = .inputs ∧ b = tc.inputs) ∨ (frameType tc b = .ack ∧ b = tc.ack) ∨
    (frameType tc b = .error ∧ b = tc.error) ∨ (frameType tc b = .txt ∧ b = tc.txt) ∨
    (frameType tc b = .other ∧ b ∉ tc.list) := by
  simp only [frameType, TypeCodes.list, List.mem_cons, List.not_mem_nil, or_false]
  split_ifs <;> simp_all

end Sys2Proof
end

