-- ==== Sys2Proof/Laws/State.lean ====
section
/-!
SUPPORT. The small lemmas of the record updates: one per field per update, true by `rfl`.
-/

namespace Sys2Proof.Machine

@[simp] theorem begin_nowUs (s : State) : s.begin.nowUs = s.nowUs := rfl
@[simp] theorem begin_pe (s : State) : s.begin.pe = s.pe := rfl
@[simp] theorem begin_il (s : State) : s.begin.il = s.il := rfl
@[simp] theorem begin_sr (s : State) : s.begin.sr = s.sr := rfl
@[simp] theorem begin_phase (s : State) : s.begin.phase = s.phase := rfl
@[simp] theorem begin_out (s : State) : s.begin.out = s.out := rfl
@[simp] theorem begin_params (s : State) : s.begin.params = s.params := rfl
@[simp] theorem begin_env (s : State) : s.begin.env = s.env := rfl
@[simp] theorem begin_port (s : State) : s.begin.port = Port.idle := rfl

@[simp] theorem emit_nowUs (f : Bytes) (s : State) : (emit f s).nowUs = s.nowUs := rfl
@[simp] theorem emit_pe (f : Bytes) (s : State) : (emit f s).pe = s.pe := rfl
@[simp] theorem emit_il (f : Bytes) (s : State) : (emit f s).il = s.il := rfl
@[simp] theorem emit_sr (f : Bytes) (s : State) : (emit f s).sr = s.sr := rfl
@[simp] theorem emit_phase (f : Bytes) (s : State) : (emit f s).phase = s.phase := rfl
@[simp] theorem emit_out (f : Bytes) (s : State) : (emit f s).out = s.out := rfl
@[simp] theorem emit_params (f : Bytes) (s : State) : (emit f s).params = s.params := rfl
@[simp] theorem emit_env (f : Bytes) (s : State) : (emit f s).env = s.env := rfl
@[simp] theorem emit_port (f : Bytes) (s : State) :
    (emit f s).port = ({ s.port with tx := s.port.tx ++ [f] } : Port) := rfl

@[simp] theorem withResult_nowUs (r : Result) (s : State) : (withResult r s).nowUs = s.nowUs := rfl
@[simp] theorem withResult_pe (r : Result) (s : State) : (withResult r s).pe = s.pe := rfl
@[simp] theorem withResult_il (r : Result) (s : State) : (withResult r s).il = s.il := rfl
@[simp] theorem withResult_sr (r : Result) (s : State) : (withResult r s).sr = s.sr := rfl
@[simp] theorem withResult_phase (r : Result) (s : State) : (withResult r s).phase = s.phase := rfl
@[simp] theorem withResult_out (r : Result) (s : State) : (withResult r s).out = s.out := rfl
@[simp] theorem withResult_params (r : Result) (s : State) : (withResult r s).params = s.params := rfl
@[simp] theorem withResult_env (r : Result) (s : State) : (withResult r s).env = s.env := rfl
@[simp] theorem withResult_port (r : Result) (s : State) :
    (withResult r s).port = ({ s.port with result := r } : Port) := rfl

@[simp] theorem advanceClock_nowUs (d : Nat) (s : State) :
    (advanceClock d s).nowUs = s.nowUs + BitVec.ofNat 32 d := rfl
@[simp] theorem advanceClock_pe (d : Nat) (s : State) : (advanceClock d s).pe = s.pe := rfl
@[simp] theorem advanceClock_il (d : Nat) (s : State) : (advanceClock d s).il = s.il := rfl
@[simp] theorem advanceClock_sr (d : Nat) (s : State) : (advanceClock d s).sr = s.sr := rfl
@[simp] theorem advanceClock_phase (d : Nat) (s : State) : (advanceClock d s).phase = s.phase := rfl
@[simp] theorem advanceClock_out (d : Nat) (s : State) : (advanceClock d s).out = s.out := rfl
@[simp] theorem advanceClock_params (d : Nat) (s : State) : (advanceClock d s).params = s.params := rfl
@[simp] theorem advanceClock_env (d : Nat) (s : State) : (advanceClock d s).env = s.env := rfl
@[simp] theorem advanceClock_port (d : Nat) (s : State) : (advanceClock d s).port = s.port := rfl

@[simp] theorem resetAll_nowUs (s : State) : (resetAll s).nowUs = 0 := rfl
@[simp] theorem resetAll_pe (s : State) : (resetAll s).pe = PulseEngine.reset := rfl
@[simp] theorem resetAll_il (s : State) : (resetAll s).il = InputLatch.reset := rfl
@[simp] theorem resetAll_sr (s : State) : (resetAll s).sr = Staging.reset := rfl
@[simp] theorem resetAll_phase (s : State) : (resetAll s).phase = Phase.tick := rfl
@[simp] theorem resetAll_out (s : State) : (resetAll s).out = driveOutputs false s.out := rfl
@[simp] theorem resetAll_params (s : State) : (resetAll s).params = s.params := rfl
@[simp] theorem resetAll_env (s : State) : (resetAll s).env = s.env := rfl
@[simp] theorem resetAll_port (s : State) : (resetAll s).port = s.port := rfl

@[simp] theorem toggleWave_nowUs (s : State) : (toggleWave s).nowUs = s.nowUs := rfl
@[simp] theorem toggleWave_il (s : State) : (toggleWave s).il = s.il := rfl
@[simp] theorem toggleWave_sr (s : State) : (toggleWave s).sr = s.sr := rfl
@[simp] theorem toggleWave_phase (s : State) : (toggleWave s).phase = s.phase := rfl
@[simp] theorem toggleWave_out (s : State) : (toggleWave s).out = driveOutputs (!s.pe.waveLevel) s.out := rfl
@[simp] theorem toggleWave_params (s : State) : (toggleWave s).params = s.params := rfl
@[simp] theorem toggleWave_env (s : State) : (toggleWave s).env = s.env := rfl
@[simp] theorem toggleWave_port (s : State) : (toggleWave s).port = s.port := rfl

@[simp] theorem edgeLatch_nowUs (ch : Nat) (l : Bool) (s : State) : (edgeLatch ch l s).nowUs = s.nowUs := rfl
@[simp] theorem edgeLatch_pe (ch : Nat) (l : Bool) (s : State) : (edgeLatch ch l s).pe = s.pe := rfl
@[simp] theorem edgeLatch_il (ch : Nat) (l : Bool) (s : State) :
    (edgeLatch ch l s).il = ({ s.il with bits := writeInputBit s.il.bits ch l, changedAtUs := s.nowUs } : InputLatch) := rfl
@[simp] theorem edgeLatch_sr (ch : Nat) (l : Bool) (s : State) : (edgeLatch ch l s).sr = s.sr := rfl
@[simp] theorem edgeLatch_phase (ch : Nat) (l : Bool) (s : State) : (edgeLatch ch l s).phase = s.phase := rfl
@[simp] theorem edgeLatch_out (ch : Nat) (l : Bool) (s : State) : (edgeLatch ch l s).out = s.out := rfl
@[simp] theorem edgeLatch_params (ch : Nat) (l : Bool) (s : State) : (edgeLatch ch l s).params = s.params := rfl
@[simp] theorem edgeLatch_env (ch : Nat) (l : Bool) (s : State) : (edgeLatch ch l s).env = s.env := rfl
@[simp] theorem edgeLatch_port (ch : Nat) (l : Bool) (s : State) : (edgeLatch ch l s).port = s.port := rfl

@[simp] theorem stageCfg_nowUs (cfg : SetupCfg) (s : State) : (stageCfg cfg s).nowUs = s.nowUs := rfl
@[simp] theorem stageCfg_pe (cfg : SetupCfg) (s : State) : (stageCfg cfg s).pe = s.pe := rfl
@[simp] theorem stageCfg_il (cfg : SetupCfg) (s : State) : (stageCfg cfg s).il = s.il := rfl
@[simp] theorem stageCfg_sr (cfg : SetupCfg) (s : State) :
    (stageCfg cfg s).sr = ({ stagedValid := true, staged := cfg, stagedAtUs := s.nowUs } : Staging) := rfl
@[simp] theorem stageCfg_phase (cfg : SetupCfg) (s : State) : (stageCfg cfg s).phase = s.phase := rfl
@[simp] theorem stageCfg_out (cfg : SetupCfg) (s : State) : (stageCfg cfg s).out = s.out := rfl
@[simp] theorem stageCfg_params (cfg : SetupCfg) (s : State) : (stageCfg cfg s).params = s.params := rfl
@[simp] theorem stageCfg_env (cfg : SetupCfg) (s : State) : (stageCfg cfg s).env = s.env := rfl
@[simp] theorem stageCfg_port (cfg : SetupCfg) (s : State) : (stageCfg cfg s).port = s.port := rfl

@[simp] theorem advancePhase_nowUs (s : State) : (advancePhase s).nowUs = s.nowUs := rfl
@[simp] theorem advancePhase_pe (s : State) : (advancePhase s).pe = s.pe := rfl
@[simp] theorem advancePhase_il (s : State) : (advancePhase s).il = s.il := rfl
@[simp] theorem advancePhase_sr (s : State) : (advancePhase s).sr = s.sr := rfl
@[simp] theorem advancePhase_phase (s : State) : (advancePhase s).phase = nextPhase s.phase := rfl
@[simp] theorem advancePhase_out (s : State) : (advancePhase s).out = s.out := rfl
@[simp] theorem advancePhase_params (s : State) : (advancePhase s).params = s.params := rfl
@[simp] theorem advancePhase_env (s : State) : (advancePhase s).env = s.env := rfl
@[simp] theorem advancePhase_port (s : State) : (advancePhase s).port = s.port := rfl

@[simp] theorem takeTurn_nowUs (s : State) : (takeTurn s).nowUs = s.nowUs := rfl
@[simp] theorem takeTurn_pe (s : State) : (takeTurn s).pe = s.pe := rfl
@[simp] theorem takeTurn_il (s : State) : (takeTurn s).il = s.il := rfl
@[simp] theorem takeTurn_sr (s : State) : (takeTurn s).sr = s.sr := rfl
@[simp] theorem takeTurn_phase (s : State) : (takeTurn s).phase = s.phase := rfl
@[simp] theorem takeTurn_out (s : State) : (takeTurn s).out = s.out := rfl
@[simp] theorem takeTurn_params (s : State) : (takeTurn s).params = s.params := rfl
@[simp] theorem takeTurn_env (s : State) :
    (takeTurn s).env = ({ rx := s.env.rx ++ turnOffers (nextTurn s), turns := s.env.turns.tail } : Env) := rfl
@[simp] theorem takeTurn_port (s : State) : (takeTurn s).port = s.port := rfl

@[simp] theorem placeFrame_nowUs (raw : Bytes) (s : State) : (placeFrame raw s).nowUs = s.nowUs := rfl
@[simp] theorem placeFrame_pe (raw : Bytes) (s : State) : (placeFrame raw s).pe = s.pe := rfl
@[simp] theorem placeFrame_il (raw : Bytes) (s : State) : (placeFrame raw s).il = s.il := rfl
@[simp] theorem placeFrame_sr (raw : Bytes) (s : State) : (placeFrame raw s).sr = s.sr := rfl
@[simp] theorem placeFrame_phase (raw : Bytes) (s : State) : (placeFrame raw s).phase = Phase.service := rfl
@[simp] theorem placeFrame_out (raw : Bytes) (s : State) : (placeFrame raw s).out = s.out := rfl
@[simp] theorem placeFrame_params (raw : Bytes) (s : State) : (placeFrame raw s).params = s.params := rfl
@[simp] theorem placeFrame_env (raw : Bytes) (s : State) :
    (placeFrame raw s).env = ({ rx := [.frame raw], turns := .loop [] :: s.env.turns } : Env) := rfl
@[simp] theorem placeFrame_port (raw : Bytes) (s : State) : (placeFrame raw s).port = s.port := rfl

@[simp] theorem sendInputs_nowUs (t c : Word) (b : Byte) (s : State) : (sendInputs t c b s).nowUs = s.nowUs := rfl
@[simp] theorem sendInputs_pe (t c : Word) (b : Byte) (s : State) : (sendInputs t c b s).pe = s.pe := rfl
@[simp] theorem sendInputs_il (t c : Word) (b : Byte) (s : State) : (sendInputs t c b s).il = s.il := rfl
@[simp] theorem sendInputs_sr (t c : Word) (b : Byte) (s : State) : (sendInputs t c b s).sr = s.sr := rfl
@[simp] theorem sendInputs_phase (t c : Word) (b : Byte) (s : State) : (sendInputs t c b s).phase = s.phase := rfl
@[simp] theorem sendInputs_out (t c : Word) (b : Byte) (s : State) : (sendInputs t c b s).out = s.out := rfl
@[simp] theorem sendInputs_params (t c : Word) (b : Byte) (s : State) : (sendInputs t c b s).params = s.params := rfl
@[simp] theorem sendInputs_env (t c : Word) (b : Byte) (s : State) : (sendInputs t c b s).env = s.env := rfl
@[simp] theorem sendInputs_port (t c : Word) (b : Byte) (s : State) :
    (sendInputs t c b s).port = ({ s.port with tx := s.port.tx ++ [inputsFrame s.params.typeCode t c b] } : Port) := rfl

@[simp] theorem sendAck_nowUs (s : State) : (sendAck s).nowUs = s.nowUs := rfl
@[simp] theorem sendAck_pe (s : State) : (sendAck s).pe = s.pe := rfl
@[simp] theorem sendAck_il (s : State) : (sendAck s).il = s.il := rfl
@[simp] theorem sendAck_sr (s : State) : (sendAck s).sr = s.sr := rfl
@[simp] theorem sendAck_phase (s : State) : (sendAck s).phase = s.phase := rfl
@[simp] theorem sendAck_out (s : State) : (sendAck s).out = s.out := rfl
@[simp] theorem sendAck_params (s : State) : (sendAck s).params = s.params := rfl
@[simp] theorem sendAck_env (s : State) : (sendAck s).env = s.env := rfl
@[simp] theorem sendAck_port (s : State) :
    (sendAck s).port = ({ s.port with tx := s.port.tx ++ [ackFrame s.params.typeCode] } : Port) := rfl

@[simp] theorem sendError_nowUs (x : Bytes) (s : State) : (sendError x s).nowUs = s.nowUs := rfl
@[simp] theorem sendError_pe (x : Bytes) (s : State) : (sendError x s).pe = s.pe := rfl
@[simp] theorem sendError_il (x : Bytes) (s : State) : (sendError x s).il = s.il := rfl
@[simp] theorem sendError_sr (x : Bytes) (s : State) : (sendError x s).sr = s.sr := rfl
@[simp] theorem sendError_phase (x : Bytes) (s : State) : (sendError x s).phase = s.phase := rfl
@[simp] theorem sendError_out (x : Bytes) (s : State) : (sendError x s).out = s.out := rfl
@[simp] theorem sendError_params (x : Bytes) (s : State) : (sendError x s).params = s.params := rfl
@[simp] theorem sendError_env (x : Bytes) (s : State) : (sendError x s).env = s.env := rfl
@[simp] theorem sendError_port (x : Bytes) (s : State) :
    (sendError x s).port = ({ s.port with tx := s.port.tx ++ [errorFrame s.params.typeCode x] } : Port) := rfl

@[simp] theorem sendText_nowUs (x : Bytes) (s : State) : (sendText x s).nowUs = s.nowUs := rfl
@[simp] theorem sendText_pe (x : Bytes) (s : State) : (sendText x s).pe = s.pe := rfl
@[simp] theorem sendText_il (x : Bytes) (s : State) : (sendText x s).il = s.il := rfl
@[simp] theorem sendText_sr (x : Bytes) (s : State) : (sendText x s).sr = s.sr := rfl
@[simp] theorem sendText_phase (x : Bytes) (s : State) : (sendText x s).phase = s.phase := rfl
@[simp] theorem sendText_out (x : Bytes) (s : State) : (sendText x s).out = s.out := rfl
@[simp] theorem sendText_params (x : Bytes) (s : State) : (sendText x s).params = s.params := rfl
@[simp] theorem sendText_env (x : Bytes) (s : State) : (sendText x s).env = s.env := rfl
@[simp] theorem sendText_port (x : Bytes) (s : State) :
    (sendText x s).port = ({ s.port with tx := s.port.tx ++ [txtFrame s.params.typeCode x] } : Port) := rfl

@[simp] theorem reportCondition_nowUs (e : ErrFlags) (r : DecodeResult) (s : State) :
    (reportCondition e r s).nowUs = s.nowUs := rfl
@[simp] theorem reportCondition_pe (e : ErrFlags) (r : DecodeResult) (s : State) :
    (reportCondition e r s).pe = s.pe := rfl
@[simp] theorem reportCondition_il (e : ErrFlags) (r : DecodeResult) (s : State) :
    (reportCondition e r s).il = s.il := rfl
@[simp] theorem reportCondition_sr (e : ErrFlags) (r : DecodeResult) (s : State) :
    (reportCondition e r s).sr = s.sr := rfl
@[simp] theorem reportCondition_phase (e : ErrFlags) (r : DecodeResult) (s : State) :
    (reportCondition e r s).phase = s.phase := rfl
@[simp] theorem reportCondition_out (e : ErrFlags) (r : DecodeResult) (s : State) :
    (reportCondition e r s).out = s.out := rfl
@[simp] theorem reportCondition_params (e : ErrFlags) (r : DecodeResult) (s : State) :
    (reportCondition e r s).params = s.params := rfl
@[simp] theorem reportCondition_env (e : ErrFlags) (r : DecodeResult) (s : State) :
    (reportCondition e r s).env = s.env := rfl
@[simp] theorem reportCondition_port (e : ErrFlags) (r : DecodeResult) (s : State) :
    (reportCondition e r s).port = ({ s.port with
        tx := s.port.tx ++ [errorFrame s.params.typeCode (Config.errText (reportRecord s.params.typeCode e r))]
        reports := s.port.reports ++ [reportRecord s.params.typeCode e r] } : Port) := rfl

@[simp] theorem overflowReport_nowUs (s : State) : (overflowReport s).nowUs = s.nowUs := rfl
@[simp] theorem overflowReport_pe (s : State) : (overflowReport s).pe = s.pe := rfl
@[simp] theorem overflowReport_il (s : State) : (overflowReport s).il = s.il := rfl
@[simp] theorem overflowReport_sr (s : State) : (overflowReport s).sr = s.sr := rfl
@[simp] theorem overflowReport_phase (s : State) : (overflowReport s).phase = s.phase := rfl
@[simp] theorem overflowReport_out (s : State) : (overflowReport s).out = s.out := rfl
@[simp] theorem overflowReport_params (s : State) : (overflowReport s).params = s.params := rfl
@[simp] theorem overflowReport_env (s : State) : (overflowReport s).env = s.env := rfl
@[simp] theorem overflowReport_port (s : State) :
    (overflowReport s).port = ({ s.port with tx := s.port.tx ++ [errorFrame s.params.typeCode Config.overflowText] } : Port) := rfl

@[simp] theorem toggleWave_pe_waveLevel (s : State) :
    (toggleWave s).pe.waveLevel = (!s.pe.waveLevel) := rfl
@[simp] theorem toggleWave_pe_currentRateHz (s : State) :
    (toggleWave s).pe.currentRateHz = (s.pe.currentRateHz) := rfl
@[simp] theorem toggleWave_pe_requestedRateHz (s : State) :
    (toggleWave s).pe.requestedRateHz = (s.pe.requestedRateHz) := rfl
@[simp] theorem toggleWave_pe_pulseLimit (s : State) :
    (toggleWave s).pe.pulseLimit = (s.pe.pulseLimit) := rfl
@[simp] theorem toggleWave_pe_syncOnRisingEdge (s : State) :
    (toggleWave s).pe.syncOnRisingEdge = (s.pe.syncOnRisingEdge) := rfl
@[simp] theorem toggleWave_pe_pulseCount (s : State) :
    (toggleWave s).pe.pulseCount = (if !s.pe.waveLevel then s.pe.pulseCount + 1 else s.pe.pulseCount) := rfl
@[simp] theorem toggleWave_pe_lastToggleUs (s : State) :
    (toggleWave s).pe.lastToggleUs = (s.nowUs) := rfl
@[simp] theorem toggleWave_pe_syncAtUs (s : State) :
    (toggleWave s).pe.syncAtUs = (s.pe.syncAtUs) := rfl
@[simp] theorem toggleWave_pe_syncValid (s : State) :
    (toggleWave s).pe.syncValid = (s.pe.syncValid) := rfl
@[simp] theorem toggleWave_pe_resetPending (s : State) :
    (toggleWave s).pe.resetPending = (s.pe.resetPending) := rfl

@[simp] theorem syncMark_nowUs (s : State) : (syncMark s).nowUs = s.nowUs := by unfold syncMark; split <;> rfl
@[simp] theorem syncMark_il (s : State) : (syncMark s).il = s.il := by unfold syncMark; split <;> rfl
@[simp] theorem syncMark_sr (s : State) : (syncMark s).sr = s.sr := by unfold syncMark; split <;> rfl
@[simp] theorem syncMark_phase (s : State) : (syncMark s).phase = s.phase := by unfold syncMark; split <;> rfl
@[simp] theorem syncMark_out (s : State) : (syncMark s).out = s.out := by unfold syncMark; split <;> rfl
@[simp] theorem syncMark_params (s : State) : (syncMark s).params = s.params := by unfold syncMark; split <;> rfl
@[simp] theorem syncMark_env (s : State) : (syncMark s).env = s.env := by unfold syncMark; split <;> rfl
@[simp] theorem syncMark_port (s : State) : (syncMark s).port = s.port := by unfold syncMark; split <;> rfl

@[simp] theorem limitStop_nowUs (s : State) : (limitStop s).nowUs = s.nowUs := by unfold limitStop; split <;> rfl
@[simp] theorem limitStop_il (s : State) : (limitStop s).il = s.il := by unfold limitStop; split <;> rfl
@[simp] theorem limitStop_sr (s : State) : (limitStop s).sr = s.sr := by unfold limitStop; split <;> rfl
@[simp] theorem limitStop_phase (s : State) : (limitStop s).phase = s.phase := by unfold limitStop; split <;> rfl
@[simp] theorem limitStop_out (s : State) : (limitStop s).out = s.out := by unfold limitStop; split <;> rfl
@[simp] theorem limitStop_params (s : State) : (limitStop s).params = s.params := by unfold limitStop; split <;> rfl
@[simp] theorem limitStop_env (s : State) : (limitStop s).env = s.env := by unfold limitStop; split <;> rfl
@[simp] theorem limitStop_port (s : State) : (limitStop s).port = s.port := by unfold limitStop; split <;> rfl

@[simp] theorem boundaryCommit_nowUs (s : State) : (boundaryCommit s).nowUs = s.nowUs := by unfold boundaryCommit; split <;> rfl
@[simp] theorem boundaryCommit_il (s : State) : (boundaryCommit s).il = s.il := by unfold boundaryCommit; split <;> rfl
@[simp] theorem boundaryCommit_sr (s : State) : (boundaryCommit s).sr = s.sr := by unfold boundaryCommit; split <;> rfl
@[simp] theorem boundaryCommit_phase (s : State) : (boundaryCommit s).phase = s.phase := by unfold boundaryCommit; split <;> rfl
@[simp] theorem boundaryCommit_out (s : State) : (boundaryCommit s).out = s.out := by unfold boundaryCommit; split <;> rfl
@[simp] theorem boundaryCommit_params (s : State) : (boundaryCommit s).params = s.params := by unfold boundaryCommit; split <;> rfl
@[simp] theorem boundaryCommit_env (s : State) : (boundaryCommit s).env = s.env := by unfold boundaryCommit; split <;> rfl
@[simp] theorem boundaryCommit_port (s : State) : (boundaryCommit s).port = s.port := by unfold boundaryCommit; split <;> rfl

@[simp] theorem commitOnLow_nowUs (s : State) : (commitOnLow s).nowUs = s.nowUs := by unfold commitOnLow; split <;> simp
@[simp] theorem commitOnLow_il (s : State) : (commitOnLow s).il = s.il := by unfold commitOnLow; split <;> simp
@[simp] theorem commitOnLow_sr (s : State) : (commitOnLow s).sr = s.sr := by unfold commitOnLow; split <;> simp
@[simp] theorem commitOnLow_phase (s : State) : (commitOnLow s).phase = s.phase := by unfold commitOnLow; split <;> simp
@[simp] theorem commitOnLow_out (s : State) : (commitOnLow s).out = s.out := by unfold commitOnLow; split <;> simp
@[simp] theorem commitOnLow_params (s : State) : (commitOnLow s).params = s.params := by unfold commitOnLow; split <;> simp
@[simp] theorem commitOnLow_env (s : State) : (commitOnLow s).env = s.env := by unfold commitOnLow; split <;> simp
@[simp] theorem commitOnLow_port (s : State) : (commitOnLow s).port = s.port := by unfold commitOnLow; split <;> simp

@[simp] theorem applyCfg_nowUs (cfg : SetupCfg) (s : State) : (applyCfg cfg s).nowUs = s.nowUs := by
  unfold applyCfg; split <;> simp
@[simp] theorem applyCfg_il (cfg : SetupCfg) (s : State) : (applyCfg cfg s).il = s.il := by
  unfold applyCfg; split <;> simp
@[simp] theorem applyCfg_sr (cfg : SetupCfg) (s : State) : (applyCfg cfg s).sr = s.sr := by
  unfold applyCfg; split <;> simp
@[simp] theorem applyCfg_phase (cfg : SetupCfg) (s : State) : (applyCfg cfg s).phase = s.phase := by
  unfold applyCfg; split <;> simp
@[simp] theorem applyCfg_out (cfg : SetupCfg) (s : State) : (applyCfg cfg s).out = s.out := by
  unfold applyCfg; split <;> simp
@[simp] theorem applyCfg_params (cfg : SetupCfg) (s : State) : (applyCfg cfg s).params = s.params := by
  unfold applyCfg; split <;> simp
@[simp] theorem applyCfg_env (cfg : SetupCfg) (s : State) : (applyCfg cfg s).env = s.env := by
  unfold applyCfg; split <;> simp
@[simp] theorem applyCfg_port (cfg : SetupCfg) (s : State) : (applyCfg cfg s).port = s.port := by
  unfold applyCfg; split <;> simp

@[simp] theorem begin_begin (s : State) : s.begin.begin = s.begin := rfl

@[simp] theorem placeFrame_nextTurn (raw : Bytes) (s : State) : nextTurn (placeFrame raw s) = .loop [] := rfl

end Sys2Proof.Machine
end

