-- ==== Sys2Proof/Laws/Ops.lean ====
section
/-!
SUPPORT. For each shared operation, once, everything it can do: what it leaves, by cases, and what it never touches.
-/

namespace Sys2Proof.Machine

/-! Outputs (R31). -/

@[simp] theorem driveOutputs_length (l : Bool) (out : List (Option Bool)) :
    (driveOutputs l out).length = out.length := by simp [driveOutputs]

@[simp] theorem driveOutputs_isSome (l : Bool) (out : List (Option Bool)) :
    (driveOutputs l out).map Option.isSome = out.map Option.isSome := by
  simp [driveOutputs, Function.comp_def]

theorem driveOutputs_mem (l : Bool) (out : List (Option Bool)) (o : Option Bool) (h : o ∈ driveOutputs l out) :
    o = none ∨ o = some l := by
  simp only [driveOutputs, List.mem_map] at h
  obtain ⟨_ | _, -, rfl⟩ := h <;> simp

/-! The sequencer (R41). -/

@[simp] theorem phaseCode_nextPhase (p : Phase) : phaseCode (nextPhase p) = phaseCode p + 1 := by
  cases p <;> rfl

theorem phaseCode_inj (p q : Phase) : phaseCode p = phaseCode q ↔ p = q := by
  cases p <;> cases q <;> decide

/-! The Pulse Engine (R123 to R129). -/

/-- The boundary commit, whole (R128). -/
theorem boundaryCommit_eq (s : State) : boundaryCommit s = { s with
    pe := { s.pe with
      currentRateHz := s.pe.requestedRateHz
      pulseCount := if s.pe.resetPending then Config.sentinel else s.pe.pulseCount
      syncValid := if s.pe.resetPending then false else s.pe.syncValid
      resetPending := false } } := by
  obtain ⟨_, pe, _, _, _, _, _, _, _⟩ := s
  obtain ⟨_, _, _, _, _, _, _, _, _, pending⟩ := pe
  cases pending <;> rfl

/-- The synchronization mark, whole (R125). -/
theorem syncMark_eq (s : State) : syncMark s = { s with
    pe := { s.pe with
      syncAtUs := if s.pe.pulseCount = 0 ∧ s.pe.waveLevel = s.pe.syncOnRisingEdge then s.nowUs else s.pe.syncAtUs
      syncValid :=
        if s.pe.pulseCount = 0 ∧ s.pe.waveLevel = s.pe.syncOnRisingEdge then true else s.pe.syncValid } } := by
  unfold syncMark
  split <;> rfl

/-- The pulse limit, whole (R126). -/
theorem limitStop_eq (s : State) : limitStop s = { s with
    pe := { s.pe with
      requestedRateHz :=
        if s.pe.pulseLimit ≠ 0 ∧ s.pe.pulseLimit.toNat ≤ s.pe.pulseCount.toNat then 0
        else s.pe.requestedRateHz } } := by
  unfold limitStop
  split <;> rfl

/-- APPLY, whole: on a running engine only a request, on a stopped one the commit at once (R129). -/
theorem applyCfg_eq (cfg : SetupCfg) (s : State) : applyCfg cfg s =
    if s.pe.currentRateHz = 0 then
      { s with pe := { s.pe with
          requestedRateHz := cfg.targetPulseRateHz
          currentRateHz := cfg.targetPulseRateHz
          pulseLimit := cfg.pulseLimit
          syncOnRisingEdge := syncOnRisingFlag cfg.flags
          pulseCount :=
            if s.pe.resetPending || resetCounterFlag cfg.flags then Config.sentinel else s.pe.pulseCount
          syncValid := if s.pe.resetPending || resetCounterFlag cfg.flags then false else s.pe.syncValid
          resetPending := false } }
    else
      { s with pe := { s.pe with
          requestedRateHz := cfg.targetPulseRateHz
          pulseLimit := cfg.pulseLimit
          syncOnRisingEdge := syncOnRisingFlag cfg.flags
          resetPending := s.pe.resetPending || resetCounterFlag cfg.flags } } := by
  unfold applyCfg
  split <;> simp [boundaryCommit_eq]

@[simp] theorem applyCfg_waveLevel (cfg : SetupCfg) (s : State) : (applyCfg cfg s).pe.waveLevel = s.pe.waveLevel := by
  rw [applyCfg_eq]; split <;> rfl

@[simp] theorem applyCfg_lastToggleUs (cfg : SetupCfg) (s : State) :
    (applyCfg cfg s).pe.lastToggleUs = s.pe.lastToggleUs := by
  rw [applyCfg_eq]; split <;> rfl

@[simp] theorem applyCfg_syncAtUs (cfg : SetupCfg) (s : State) : (applyCfg cfg s).pe.syncAtUs = s.pe.syncAtUs := by
  rw [applyCfg_eq]; split <;> rfl

/-- The gate of TICK in numbers (R123). -/
theorem togglesNow_iff (s : State) : togglesNow s = true ↔ s.pe.currentRateHz ≠ 0 ∧
    1000000 / (2 * s.pe.currentRateHz.toNat) ≤ (s.nowUs - s.pe.lastToggleUs).toNat := by
  simp only [togglesNow, Bool.and_eq_true, decide_eq_true_iff]
  rfl

/-- A count is 0 after the increment exactly when it was the sentinel (R27, R124). -/
theorem count_succ_eq_zero_iff (c : Word) : c + 1 = 0 ↔ c = Config.sentinel := by
  unfold Config.sentinel
  constructor <;> intro h <;> bv_omega

/-- TICK on a rising edge, whole (R124 to R127). -/
theorem tickEngine_rising (s : State) (hw : s.pe.waveLevel = false) (hg : togglesNow s = true) :
    tickEngine s = { s with
      out := driveOutputs true s.out
      pe := { s.pe with
        waveLevel := true
        lastToggleUs := s.nowUs
        pulseCount := s.pe.pulseCount + 1
        syncAtUs :=
          if s.pe.pulseCount = Config.sentinel ∧ s.pe.syncOnRisingEdge = true then s.nowUs else s.pe.syncAtUs
        syncValid :=
          if s.pe.pulseCount = Config.sentinel ∧ s.pe.syncOnRisingEdge = true then true else s.pe.syncValid
        requestedRateHz :=
          if s.pe.pulseLimit ≠ 0 ∧ s.pe.pulseLimit.toNat ≤ (s.pe.pulseCount + 1).toNat then 0
          else s.pe.requestedRateHz } } := by
  simp only [tickEngine, hg, if_true, syncMark_eq, limitStop_eq, commitOnLow, toggleWave, hw, Bool.not_false,
    count_succ_eq_zero_iff, eq_comm (a := true)]

/-- TICK on a falling edge, whole: the commit happens in the same tick (R124 to R128). -/
theorem tickEngine_falling (s : State) (hw : s.pe.waveLevel = true) (hg : togglesNow s = true) (req : Byte)
    (hr : req = if s.pe.pulseLimit ≠ 0 ∧ s.pe.pulseLimit.toNat ≤ s.pe.pulseCount.toNat then 0
      else s.pe.requestedRateHz) :
    tickEngine s = { s with
      out := driveOutputs false s.out
      pe := { s.pe with
        waveLevel := false
        lastToggleUs := s.nowUs
        requestedRateHz := req
        currentRateHz := req
        pulseCount := if s.pe.resetPending then Config.sentinel else s.pe.pulseCount
        syncAtUs := if s.pe.pulseCount = 0 ∧ s.pe.syncOnRisingEdge = false then s.nowUs else s.pe.syncAtUs
        syncValid :=
          if s.pe.resetPending then false
          else if s.pe.pulseCount = 0 ∧ s.pe.syncOnRisingEdge = false then true
          else s.pe.syncValid
        resetPending := false } } := by
  simp only [tickEngine, hg, if_true, syncMark_eq, limitStop_eq, boundaryCommit_eq, commitOnLow, toggleWave, hw,
    Bool.not_true, Bool.false_eq_true, if_false, hr]
  simp only [eq_comm (a := false)]

/-- TICK does nothing at all, or rises, or falls (R123). -/
theorem tickEngine_cases (s : State) :
    (togglesNow s = false ∧ tickEngine s = s) ∨
    (togglesNow s = true ∧ s.pe.waveLevel = false ∧ (tickEngine s).pe.waveLevel = true) ∨
    (togglesNow s = true ∧ s.pe.waveLevel = true ∧ (tickEngine s).pe.waveLevel = false) := by
  cases hg : togglesNow s
  · exact .inl ⟨rfl, by simp [tickEngine, hg]⟩
  · cases hw : s.pe.waveLevel
    · exact .inr (.inl ⟨rfl, rfl, by rw [tickEngine_rising s hw hg]⟩)
    · exact .inr (.inr ⟨rfl, rfl, by rw [tickEngine_falling s hw hg _ rfl]⟩)

/-- TICK writes the engine and the outputs only. -/
theorem tickEngine_frame (s : State) : ∃ pe out, tickEngine s = { s with pe := pe, out := out } := by
  cases hg : togglesNow s
  · exact ⟨s.pe, s.out, by simp [tickEngine, hg]⟩
  · cases hw : s.pe.waveLevel
    · exact ⟨_, _, tickEngine_rising s hw hg⟩
    · exact ⟨_, _, tickEngine_falling s hw hg _ rfl⟩

@[simp] theorem tickEngine_nowUs (s : State) : (tickEngine s).nowUs = s.nowUs := by
  obtain ⟨_, _, h⟩ := tickEngine_frame s; rw [h]
@[simp] theorem tickEngine_il (s : State) : (tickEngine s).il = s.il := by
  obtain ⟨_, _, h⟩ := tickEngine_frame s; rw [h]
@[simp] theorem tickEngine_sr (s : State) : (tickEngine s).sr = s.sr := by
  obtain ⟨_, _, h⟩ := tickEngine_frame s; rw [h]
@[simp] theorem tickEngine_phase (s : State) : (tickEngine s).phase = s.phase := by
  obtain ⟨_, _, h⟩ := tickEngine_frame s; rw [h]
@[simp] theorem tickEngine_params (s : State) : (tickEngine s).params = s.params := by
  obtain ⟨_, _, h⟩ := tickEngine_frame s; rw [h]
@[simp] theorem tickEngine_env (s : State) : (tickEngine s).env = s.env := by
  obtain ⟨_, _, h⟩ := tickEngine_frame s; rw [h]
@[simp] theorem tickEngine_port (s : State) : (tickEngine s).port = s.port := by
  obtain ⟨_, _, h⟩ := tickEngine_frame s; rw [h]

/-! The Input Latch (R160 to R163). -/

/-- EDGE writes one bit and keeps the other seven (R160). -/
theorem writeInputBit_getLsbD (bits : Byte) (ch k : Nat) (level : Bool) (hc : ch < 8) (hk : k < 8) :
    (writeInputBit bits ch level).getLsbD k = if k = ch then level else bits.getLsbD k := by
  unfold writeInputBit
  interval_cases ch <;> interval_cases k <;> cases level <;> simp

/-- DRAIN: nothing, or one notification and the new last observed time (R163). -/
theorem drainLatch_eq (s : State) : drainLatch s =
    if s.il.changedAtUs = s.il.lastObservedUs then s
    else { s with
      il := { s.il with lastObservedUs := s.il.changedAtUs }
      port := { s.port with
        tx := s.port.tx ++ [inputsFrame s.params.typeCode s.il.changedAtUs s.pe.pulseCount s.il.bits] } } := by
  unfold drainLatch snapshotLatch sendInputs emit
  by_cases h : s.il.changedAtUs = s.il.lastObservedUs <;> simp [h]

/-! Inbound frames (R200 to R208). -/

/-- What any inbound frame can do to the state: the staging register and the port, nothing else. -/
abbrev StagesAtMost (s t : State) : Prop := ∃ sr port, t = { s with sr := sr, port := port }

/-- What a report can do: the port, nothing else (R241). -/
abbrev PortOnly (s t : State) : Prop := ∃ port, t = { s with port := port }

theorem PortOnly.stagesAtMost {s t : State} (h : PortOnly s t) : StagesAtMost s t := by
  obtain ⟨p, rfl⟩ := h; exact ⟨s.sr, p, rfl⟩

theorem reportCondition_portOnly (e : ErrFlags) (r : DecodeResult) (s : State) : PortOnly s (reportCondition e r s) :=
  ⟨_, rfl⟩

/-- The SETUP arm: staged and acknowledged when no flag is set, else untouched (R202). -/
theorem setupArm_cases (r : FrameRecord) (s : State) :
    (∃ cfg, (setupErr r).isEmpty = true ∧ decodeSetup r.payload = some cfg ∧
      setupArm r s = (sendAck (stageCfg cfg s), setupErr r)) ∨ setupArm r s = (s, setupErr r) := by
  unfold setupArm
  by_cases he : (setupErr r).isEmpty = true
  · cases hd : decodeSetup r.payload with
    | none => right; simp [he]
    | some cfg => left; exact ⟨cfg, he, rfl, by simp [he]⟩
  · right; simp [he]

theorem armOf_stagesAtMost (ft : FrameType) (r : FrameRecord) (s : State) : StagesAtMost s (armOf ft r s).1 := by
  cases ft with
  | echo => simp only [armOf, echoArm]; split <;> exact ⟨s.sr, _, rfl⟩
  | setup =>
    rcases setupArm_cases r s with ⟨cfg, -, -, h⟩ | h <;> simp only [armOf, h]
    · exact ⟨_, _, rfl⟩
    · exact ⟨s.sr, s.port, rfl⟩
  | _ => exact ⟨s.sr, s.port, rfl⟩

/-- An arm that is not SETUP's writes the port only. -/
theorem armOf_portOnly (ft : FrameType) (h : ft ≠ .setup) (r : FrameRecord) (s : State) :
    PortOnly s (armOf ft r s).1 := by
  cases ft with
  | echo => simp only [armOf, echoArm]; split <;> exact ⟨_, rfl⟩
  | setup => exact absurd rfl h
  | _ => exact ⟨s.port, rfl⟩

/-- With a flag set no arm acts: it leaves the state as it is (R200). -/
theorem armOf_idle (ft : FrameType) (r : FrameRecord) (s : State) (h : (armOf ft r s).2.isEmpty = false) :
    (armOf ft r s).1 = s := by
  cases ft with
  | echo => simp only [armOf, echoArm] at *; split <;> simp_all
  | setup =>
    rcases setupArm_cases r s with ⟨cfg, he, -, h'⟩ | h' <;> simp only [armOf, h'] at *
    simp [he] at h
  | _ => rfl

theorem runArm_stagesAtMost (arm : FrameRecord → State → State × ErrFlags) (r : FrameRecord) (s : State)
    (h : StagesAtMost s (arm r s).1) : StagesAtMost s (runArm arm r s).1 := by
  obtain ⟨sr, port, h⟩ := h
  simp only [runArm]
  split
  · exact ⟨sr, port, h⟩
  · rw [h]; exact ⟨sr, _, rfl⟩

/-- HANDLE of any bytes writes the staging register and the port at most (R72, R241). -/
theorem handleFrame_stagesAtMost (raw : Bytes) (s : State) : StagesAtMost s (handleFrame raw s).1 := by
  unfold handleFrame
  split
  · exact (reportCondition_portOnly ..).stagesAtMost
  · exact runArm_stagesAtMost _ _ _ (armOf_stagesAtMost _ _ _)

theorem handleItem_stagesAtMost (item : Item) (s : State) : StagesAtMost s (handleItem item s).1 := by
  cases item with
  | frame raw => exact handleFrame_stagesAtMost raw s
  | overflow => exact ⟨s.sr, _, rfl⟩

/-- SERVICE of any items writes the staging register and the port at most (R72, R215). -/
theorem serviceItems_stagesAtMost (items : List Item) (s : State) : StagesAtMost s (serviceItems items s).1 := by
  induction items generalizing s with
  | nil => exact ⟨s.sr, s.port, rfl⟩
  | cons item rest ih =>
    obtain ⟨sr, port, h⟩ := handleItem_stagesAtMost item s
    obtain ⟨sr', port', h'⟩ := ih (handleItem item s).1
    exact ⟨sr', port', by simp only [serviceItems]; rw [h', h]⟩

theorem serviceOp_stagesAtMost (items : List Item) (s : State) : StagesAtMost s (serviceOp items s) := by
  obtain ⟨sr, port, h⟩ := serviceItems_stagesAtMost items s
  exact ⟨sr, _, by simp only [serviceOp]; rw [h]; rfl⟩

/-! Staging (R210). -/

/-- POLL_APPLY: the due configuration is applied and consumed, or nothing happens (R210). -/
theorem pollStaged_cases (s : State) :
    (stagedDue s = true ∧
      pollStaged s = { applyCfg s.sr.staged s with sr := { s.sr with stagedValid := false } }) ∨
    (stagedDue s = false ∧ pollStaged s = s) := by
  unfold pollStaged
  cases h : stagedDue s
  · exact .inr ⟨rfl, by simp⟩
  · exact .inl ⟨rfl, by simp⟩

theorem stagedDue_iff (s : State) : stagedDue s = true ↔ s.sr.stagedValid = true ∧
    s.sr.staged.activationDelayUs.toNat ≤ (s.nowUs - s.sr.stagedAtUs).toNat := by
  simp only [stagedDue, Bool.and_eq_true, decide_eq_true_iff]
  rfl

/-! Operations of the control loop (R214). -/

/-- A named LOOP operation completes exactly in its phase (X3). -/
theorem loopOperation_eq_next_iff (p : Phase) (op : State → State) (s t : State) :
    loopOperation p op s = .next t ↔ s.phase = p ∧ t = advancePhase (op s.begin) := by
  unfold loopOperation
  split
  · rename_i h
    exact ⟨fun e => ⟨h, (Host.Outcome.next.inj e).symm⟩, fun e => congrArg _ e.2.symm⟩
  · rename_i h
    exact ⟨(nomatch ·), fun e => absurd e.1 h⟩

theorem edge_eq_next_iff (ch : Nat) (level : Bool) (s t : State) :
    execEdge ch level s = .next t ↔ channelPresent s ch = true ∧ t = edgeLatch ch level s.begin := by
  unfold execEdge
  split
  · rename_i h
    exact ⟨fun e => ⟨h, (Host.Outcome.next.inj e).symm⟩, fun e => congrArg _ e.2.symm⟩
  · rename_i h
    exact ⟨(nomatch ·), fun e => absurd e.1 h⟩

/-- The four bodies of the LOOP step (R214). -/
theorem loopBody_cases (s : State) :
    (s.phase = .tick ∧ loopBody s = tickEngine s) ∨ (s.phase = .drain ∧ loopBody s = drainLatch s) ∨
    (s.phase = .service ∧ loopBody s = serviceOp s.env.rx { s with env := { s.env with rx := [] } }) ∨
    (s.phase = .pollApply ∧ loopBody s = pollStaged s) := by
  unfold loopBody
  cases h : s.phase <;> simp

end Sys2Proof.Machine
end

