-- ==== Sys2Proof/Laws/Exec.lean ====
section
/-!
SUPPORT. Once and for all operations: what `exec` can do to the state when it answers a next state, and what `step` can do.
A proof about every operation or every step is a case analysis of these.
-/

namespace Sys2Proof.Machine

theorem next_inj {s t : State} : (Host.Outcome.next s : Host.Outcome State Fault Refusal) = .next t ↔ s = t :=
  ⟨Host.Outcome.next.inj, congrArg _⟩

/-- DRAIN writes the last observed time and the port at most (R163). -/
theorem drainLatch_frame (s : State) : ∃ il port, drainLatch s = { s with il := il, port := port } ∧
    il.bits = s.il.bits ∧ il.changedAtUs = s.il.changedAtUs := by
  rw [drainLatch_eq]
  split
  · exact ⟨s.il, s.port, rfl, rfl, rfl⟩
  · exact ⟨_, _, rfl, rfl, rfl⟩

/-- POLL_APPLY writes the engine, but not the wave, and the staging register at most (R129, R210). -/
theorem pollStaged_frame (s : State) : ∃ pe sr, pollStaged s = { s with pe := pe, sr := sr } ∧
    pe.waveLevel = s.pe.waveLevel ∧ pe.lastToggleUs = s.pe.lastToggleUs ∧ pe.syncAtUs = s.pe.syncAtUs := by
  rcases pollStaged_cases s with ⟨-, h⟩ | ⟨-, h⟩
  · refine ⟨(applyCfg s.sr.staged s).pe, { s.sr with stagedValid := false }, ?_, by simp⟩
    rw [h, applyCfg_eq]
    split <;> rfl
  · exact ⟨s.pe, s.sr, h, rfl, rfl, rfl⟩

/-- An inbound frame of any type writes the staging register and the port at most (R72, R241). -/
theorem inbound_stagesAtMost (ft : FrameType) (type length cks : Byte) (payload : Bytes) (s t : State)
    (h : inbound (armOf ft) type length cks payload s = .next t) : StagesAtMost s t := by
  obtain ⟨sr, port, h1⟩ :=
    runArm_stagesAtMost (armOf ft) (decodeRecord type length cks payload) s.begin (armOf_stagesAtMost ..)
  rw [inbound, next_inj] at h
  rw [← h, withFlags, h1]
  exact ⟨sr, _, rfl⟩

/-- An inbound frame that is not a SETUP writes the port only (R201, R203 to R207). -/
theorem inbound_portOnly (ft : FrameType) (hn : ft ≠ .setup) (type length cks : Byte) (payload : Bytes) (s t : State)
    (h : inbound (armOf ft) type length cks payload s = .next t) : PortOnly s t := by
  rw [inbound, next_inj] at h
  obtain ⟨port, h1⟩ := armOf_portOnly ft hn (decodeRecord type length cks payload) s.begin
  subst h
  simp only [withFlags, runArm]
  split
  · rw [h1]; exact ⟨_, rfl⟩
  · rw [h1]; exact ⟨_, rfl⟩

/-- The operations the sequencer or RESET performs: the ones that write the phase (R41). -/
abbrev WritesPhase (i : Instr) : Prop :=
  i = .reset ∨ i = .tick ∨ i = .drain ∨ (∃ items, i = .service items) ∨ i = .pollApply ∨ i = .loopStep

/-- What one operation does. -/
inductive ExecEffect (i : Instr) (s t : State) : Prop where
  /-- the outbound, pure and non-SETUP inbound operations, SNAPSHOT, REPORT, OVERFLOW: the port only -/
  | port (hi : ¬ WritesPhase i) (h : PortOnly s t)
  /-- HANDLE, STAGE and an inbound SETUP: the staging register and the port -/
  | stage (hi : (∃ raw, i = .handle raw) ∨ (∃ cfg, i = .stage cfg) ∨ ∃ l c p, i = .rxSetup l c p) (h : StagesAtMost s t)
  /-- SERVICE, by name or as the LOOP step, which also empties port `rx` -/
  | service (hi : (∃ items, i = .service items) ∨ i = .loopStep) (hp : s.phase = .service)
      (h : ∃ sr port env, t = { s with sr := sr, port := port, env := env, phase := .pollApply })
  | reset (hi : i = .reset) (h : t = resetAll s.begin)
  | adv (d : Nat) (hi : i = .adv d) (h : t = advanceClock d s.begin)
  | edge (ch : Nat) (level : Bool) (hi : i = .edge ch level) (hc : channelPresent s ch = true)
      (h : t = edgeLatch ch level s.begin)
  | tick (hi : i = .tick ∨ i = .loopStep) (hp : s.phase = .tick) (h : t = advancePhase (tickEngine s.begin))
  | drain (hi : i = .drain ∨ i = .loopStep) (hp : s.phase = .drain) (h : t = advancePhase (drainLatch s.begin))
  | poll (hi : i = .pollApply ∨ i = .loopStep) (hp : s.phase = .pollApply) (h : t = advancePhase (pollStaged s.begin))
  | apply (cfg : SetupCfg) (hi : i = .apply cfg) (h : t = applyCfg cfg s.begin)
  | commit (hi : i = .boundaryCommit) (hw : s.pe.waveLevel = false) (h : t = boundaryCommit s.begin)

theorem serviceStep_frame (items : List Item) (s s' : State) (hp : s'.phase = .service)
    (h : ∃ env, s' = { s.begin with env := env }) :
    ∃ sr port env, advancePhase (serviceOp items s') = { s with sr := sr, port := port, env := env, phase := .pollApply } := by
  obtain ⟨env, rfl⟩ := h
  obtain ⟨sr, port, h⟩ := serviceOp_stagesAtMost items { s.begin with env := env }
  rw [h]
  exact ⟨sr, port, env, by simp only [advancePhase] at hp ⊢; rw [hp]; rfl⟩

/-- Every next state of `exec` is one of these. -/
theorem exec_effect (i : Instr) (s t : State) (h : exec i s = .next t) : ExecEffect i s t := by
  have ifNext : ∀ {p : Prop} [Decidable p] {a : State} {r : Refusal},
      (if p then .next a else .refused r : Host.Outcome State Fault Refusal) = .next t → p ∧ t = a := by
    intro p _ a r h'
    split at h'
    · exact ⟨‹p›, (next_inj.1 h').symm⟩
    · cases h'
  cases i with
  | reset => exact .reset rfl (next_inj.1 h).symm
  | adv d => exact .adv d rfl (next_inj.1 h).symm
  | edge ch level =>
    obtain ⟨hc, ht⟩ := (edge_eq_next_iff ..).1 h
    exact .edge ch level rfl hc ht
  | tick => obtain ⟨hp, ht⟩ := (loopOperation_eq_next_iff ..).1 h; exact .tick (.inl rfl) hp ht
  | drain => obtain ⟨hp, ht⟩ := (loopOperation_eq_next_iff ..).1 h; exact .drain (.inl rfl) hp ht
  | pollApply => obtain ⟨hp, ht⟩ := (loopOperation_eq_next_iff ..).1 h; exact .poll (.inl rfl) hp ht
  | service items =>
    obtain ⟨hp, rfl⟩ := (loopOperation_eq_next_iff ..).1 h
    exact .service (.inl ⟨items, rfl⟩) hp (serviceStep_frame items s s.begin hp ⟨_, rfl⟩)
  | loopStep =>
    have ht := (next_inj.1 h).symm
    rcases loopBody_cases s.begin with ⟨hp, hb⟩ | ⟨hp, hb⟩ | ⟨hp, hb⟩ | ⟨hp, hb⟩ <;> rw [hb] at ht
    · exact .tick (.inr rfl) hp ht
    · exact .drain (.inr rfl) hp ht
    · exact .service (.inr rfl) hp (by rw [ht]; exact serviceStep_frame _ s _ hp ⟨_, rfl⟩)
    · exact .poll (.inr rfl) hp ht
  | snapshot => exact .port (by simp) ⟨_, (next_inj.1 h).symm⟩
  | apply cfg => exact .apply cfg rfl (next_inj.1 h).symm
  | boundaryCommit =>
    simp only [exec, execBoundaryCommit] at h
    split at h
    · cases h
    · rename_i hw; exact .commit rfl (by simpa using hw) (next_inj.1 h).symm
  | handle raw =>
    refine .stage (.inl ⟨raw, rfl⟩) ?_
    obtain ⟨sr, port, h3⟩ := handleFrame_stagesAtMost raw s.begin
    rw [← next_inj.1 h, withFlags, h3]
    exact ⟨sr, _, rfl⟩
  | stage cfg => exact .stage (.inr (.inl ⟨cfg, rfl⟩)) ⟨_, _, (next_inj.1 h).symm⟩
  | report err r => exact .port (by simp) ⟨_, (next_inj.1 h).symm⟩
  | overflow => exact .port (by simp) ⟨_, (next_inj.1 h).symm⟩
  | rxEcho l c p => exact .port (by simp) (inbound_portOnly .echo (by decide) _ _ _ _ _ _ h)
  | rxSetup l c p => exact .stage (.inr (.inr ⟨l, c, p, rfl⟩)) (inbound_stagesAtMost .setup _ _ _ _ _ _ h)
  | rxInputs l c p => exact .port (by simp) (inbound_portOnly .inputs (by decide) _ _ _ _ _ _ h)
  | rxAck l c p => exact .port (by simp) (inbound_portOnly .ack (by decide) _ _ _ _ _ _ h)
  | rxError l c p => exact .port (by simp) (inbound_portOnly .error (by decide) _ _ _ _ _ _ h)
  | rxTxt l c p => exact .port (by simp) (inbound_portOnly .txt (by decide) _ _ _ _ _ _ h)
  | rxUnknown type l c p =>
    simp only [exec, execRxUnknown] at h
    split at h
    · exact .port (by simp) (inbound_portOnly .other (by decide) _ _ _ _ _ _ h)
    · cases h
  | rxShort raw => exact .port (by simp) ⟨_, (ifNext h).2⟩
  | txEcho raw => exact .port (by simp) ⟨_, (ifNext h).2⟩
  | txAck => exact .port (by simp) ⟨_, (next_inj.1 h).symm⟩
  | txInputs u c b => exact .port (by simp) ⟨_, (next_inj.1 h).symm⟩
  | txError text => exact .port (by simp) ⟨_, (ifNext h).2⟩
  | txTxt text => exact .port (by simp) ⟨_, (ifNext h).2⟩
  | checksum p => exact .port (by simp) ⟨_, (next_inj.1 h).symm⟩
  | decode p => exact .port (by simp) ⟨_, (next_inj.1 h).symm⟩
  | encode type p => exact .port (by simp) ⟨_, (ifNext h).2⟩
  | setupDecode p =>
    simp only [exec, execSetupDecode] at h
    split at h
    · exact .port (by simp) ⟨_, (next_inj.1 h).symm⟩
    · cases h
  | setupEncode p => exact .port (by simp) ⟨_, (next_inj.1 h).symm⟩
  | inputsEncode u c b => exact .port (by simp) ⟨_, (next_inj.1 h).symm⟩
  | halfPeriod r =>
    simp only [exec, execHalfPeriod] at h
    split at h
    · cases h
    · exact .port (by simp) ⟨_, (next_inj.1 h).symm⟩

/-- What one step of the machine does. -/
inductive StepEffect (s t : State) : Prop where
  | rst (hn : nextTurn s = .rst) (h : t = resetAll (takeTurn s).begin)
  | adv (d : Nat) (hn : nextTurn s = .clkAdv d) (h : t = advanceClock d (takeTurn s).begin)
  | edge (ch : Nat) (level : Bool) (hn : nextTurn s = .edge ch level) (hc : channelPresent s ch = true)
      (h : t = edgeLatch ch level (takeTurn s).begin)
  | tick (offered : List Item) (hn : nextTurn s = .loop offered) (hp : s.phase = .tick)
      (h : t = advancePhase (tickEngine (takeTurn s).begin))
  | drain (offered : List Item) (hn : nextTurn s = .loop offered) (hp : s.phase = .drain)
      (h : t = advancePhase (drainLatch (takeTurn s).begin))
  | service (offered : List Item) (hn : nextTurn s = .loop offered) (hp : s.phase = .service)
      (h : ∃ sr port env, t = { s with sr := sr, port := port, env := env, phase := .pollApply })
  | poll (offered : List Item) (hn : nextTurn s = .loop offered) (hp : s.phase = .pollApply)
      (h : t = advancePhase (pollStaged (takeTurn s).begin))

/-- Every next state of `step` is one of these. -/
theorem step_effect (s t : State) (h : step s = .next t) : StepEffect s t := by
  unfold step at h
  cases hn : nextTurn s with
  | rst => rw [hn] at h; exact .rst hn (next_inj.1 h).symm
  | clkAdv d => rw [hn] at h; exact .adv d hn (next_inj.1 h).symm
  | edge ch level =>
    rw [hn] at h
    obtain ⟨hc, ht⟩ := (edge_eq_next_iff ..).1 h
    exact .edge ch level hn hc ht
  | loop offered =>
    rw [hn] at h
    have ht := (next_inj.1 h).symm
    rcases loopBody_cases (takeTurn s).begin with ⟨hp, hb⟩ | ⟨hp, hb⟩ | ⟨hp, hb⟩ | ⟨hp, hb⟩ <;> rw [hb] at ht
    · exact .tick offered hn hp ht
    · exact .drain offered hn hp ht
    · exact .service offered hn hp (by
        rw [ht]
        obtain ⟨sr, port, env, h1⟩ := serviceStep_frame (takeTurn s).begin.env.rx (takeTurn s)
          { (takeTurn s).begin with env := { (takeTurn s).begin.env with rx := [] } } hp ⟨_, rfl⟩
        exact ⟨sr, port, env, h1⟩)
    · exact .poll offered hn hp ht

/-! What the loop bodies leave of the phase. -/

@[simp] theorem drainLatch_phase (s : State) : (drainLatch s).phase = s.phase := by
  obtain ⟨_, _, h, -⟩ := drainLatch_frame s; rw [h]

@[simp] theorem pollStaged_phase (s : State) : (pollStaged s).phase = s.phase := by
  obtain ⟨_, _, h, -⟩ := pollStaged_frame s; rw [h]

@[simp] theorem serviceOp_phase (items : List Item) (s : State) : (serviceOp items s).phase = s.phase := by
  obtain ⟨_, _, h⟩ := serviceOp_stagesAtMost items s; rw [h]

end Sys2Proof.Machine
end

