-- ==== Sys2Proof/Laws/PerInstr.lean ====
section
/-!
SUPPORT. A statement about every operation as syntax: an operation has bytes exactly when it passes a port (spec R94, R96:
the EVENT and FUNC rows have no bits). One lemma per constructor.
-/

namespace Sys2Proof.Laws.CodedDirection

/-- The encoder answers exactly for the operations of port `rx` and port `tx`. -/
def Statement (i : Instr) : Prop := ∀ tc : TypeCodes, (Sys2Proof.encode tc i).isSome = i.direction.isSome

theorem reset : Statement .reset := by intro; rfl
theorem adv : ∀ a, Statement (.adv a) := by intros; intro; rfl
theorem edge : ∀ a b, Statement (.edge a b) := by intros; intro; rfl
theorem tick : Statement .tick := by intro; rfl
theorem drain : Statement .drain := by intro; rfl
theorem service : ∀ a, Statement (.service a) := by intros; intro; rfl
theorem pollApply : Statement .pollApply := by intro; rfl
theorem loopStep : Statement .loopStep := by intro; rfl
theorem snapshot : Statement .snapshot := by intro; rfl
theorem apply : ∀ a, Statement (.apply a) := by intros; intro; rfl
theorem boundaryCommit : Statement .boundaryCommit := by intro; rfl
theorem handle : ∀ a, Statement (.handle a) := by intros; intro; rfl
theorem stage : ∀ a, Statement (.stage a) := by intros; intro; rfl
theorem report : ∀ a b, Statement (.report a b) := by intros; intro; rfl
theorem overflow : Statement .overflow := by intro; rfl
theorem rxEcho : ∀ a b c, Statement (.rxEcho a b c) := by intros; intro; rfl
theorem rxSetup : ∀ a b c, Statement (.rxSetup a b c) := by intros; intro; rfl
theorem rxInputs : ∀ a b c, Statement (.rxInputs a b c) := by intros; intro; rfl
theorem rxAck : ∀ a b c, Statement (.rxAck a b c) := by intros; intro; rfl
theorem rxError : ∀ a b c, Statement (.rxError a b c) := by intros; intro; rfl
theorem rxTxt : ∀ a b c, Statement (.rxTxt a b c) := by intros; intro; rfl
theorem rxUnknown : ∀ a b c d, Statement (.rxUnknown a b c d) := by intros; intro; rfl
theorem rxShort : ∀ a, Statement (.rxShort a) := by intros; intro; rfl
theorem txEcho : ∀ a, Statement (.txEcho a) := by intros; intro; rfl
theorem txAck : Statement .txAck := by intro; rfl
theorem txInputs : ∀ a b c, Statement (.txInputs a b c) := by intros; intro; rfl
theorem txError : ∀ a, Statement (.txError a) := by intros; intro; rfl
theorem txTxt : ∀ a, Statement (.txTxt a) := by intros; intro; rfl
theorem checksum : ∀ a, Statement (.checksum a) := by intros; intro; rfl
theorem decode : ∀ a, Statement (.decode a) := by intros; intro; rfl
theorem encode : ∀ a b, Statement (.encode a b) := by intros; intro; rfl
theorem setupDecode : ∀ a, Statement (.setupDecode a) := by intros; intro; rfl
theorem setupEncode : ∀ a, Statement (.setupEncode a) := by intros; intro; rfl
theorem inputsEncode : ∀ a b c, Statement (.inputsEncode a b c) := by intros; intro; rfl
theorem halfPeriod : ∀ a, Statement (.halfPeriod a) := by intros; intro; rfl

end Sys2Proof.Laws.CodedDirection
end

