-- ==== Sys2Proof/Tests/Slice0.lean ====
section
/-!
SUPPORT. The model's own tests. Expected results come from `95_test_vectors.md` (the vector's name stands before each test)
or, where none does, from the rule named there by hand. The last part shows, for every statement with hypotheses, concrete
states and operands that meet them.
-/

namespace Sys2Proof.Tests

open Sys2Proof.Machine

/-! Helpers. -/

/-- The operation completes and its next state passes the check. -/
def nextIs (o : Host.Outcome State Fault Refusal) (p : State → Bool) : Bool :=
  match o with
  | .next t => p t
  | .fault _ => false
  | .refused _ => false

/-- The operation is refused for this reason. -/
def refusedAs (o : Host.Outcome State Fault Refusal) (r : Refusal) : Bool :=
  match o with
  | .next _ => false
  | .fault _ => false
  | .refused r' => r == r'

def isOk (e : Except DecodeReject Instr) (i : Instr) : Bool :=
  match e with
  | .ok j => i == j
  | .error _ => false

def isReject (e : Except DecodeReject Instr) (r : DecodeReject) : Bool :=
  match e with
  | .ok _ => false
  | .error r' => r == r'

/-- The state after reset at another time. -/
def at_ (now : Word) : State := { State.reset with nowUs := now }

/-- An engine at 10 Hz, wave LOW, sentinel count, that toggled last at 1000 (V-PE-2). -/
def low10 (now : Word) : State :=
  { State.reset with
    nowUs := now
    pe := { PulseEngine.reset with currentRateHz := 10, requestedRateHz := 10, syncOnRisingEdge := true, lastToggleUs := 1000 } }

/-- An engine at 10 Hz in its first HIGH phase since 50000, a rate of 20 requested (V-PE-7). -/
def high10 (now : Word) : State :=
  { State.reset with
    nowUs := now
    out := [some true]
    pe := { PulseEngine.reset with
      waveLevel := true, currentRateHz := 10, requestedRateHz := 20, pulseCount := 0, syncOnRisingEdge := true,
      lastToggleUs := 50000, syncAtUs := 50000, syncValid := true } }

/-- A latch pair not yet observed (V-IL-2, V-IL-3), in the DRAIN phase. -/
def latched : State :=
  { State.reset with nowUs := 1234, phase := .drain, il := { bits := 0x04, changedAtUs := 1234, lastObservedUs := 0 } }

/-- A configuration staged with a delay of one second (V-SR-1), in the POLL_APPLY phase. -/
def waiting (now : Word) : State :=
  { State.reset with
    nowUs := now, phase := .pollApply
    sr := { stagedValid := true, staged := ⟨1000000, 5, 10, 0x01⟩, stagedAtUs := 2000 } }

/-- Another assignment of type codes. -/
def otherCodes : TypeCodes := { echo := 0x10, setup := 0x20, inputs := 0x30, ack := 0x40, error := 0x50, txt := 0x60 }

/-! WellFormed: an ill-formed term for each check. -/

theorem test_wf_channel_refuses_8 : (Instr.edge 8 true).wellFormed Config.typeCode = false := by decide
theorem test_wf_channel_admits_7 : (Instr.edge 7 true).wellFormed Config.typeCode = true := by decide
theorem test_wf_text_refuses_256 :
    (Instr.txTxt (List.replicate 256 0)).wellFormed Config.typeCode = false ∧
    (Instr.txError (List.replicate 256 0)).wellFormed Config.typeCode = false ∧
    (Instr.encode 0 (List.replicate 256 0)).wellFormed Config.typeCode = false := by
  simp only [Instr.wellFormed, wfText, Config.maxPayload, List.length_replicate]
  decide
theorem test_wf_setup_payload_refuses_9 :
    (Instr.setupDecode (List.replicate 9 0)).wellFormed Config.typeCode = false := by decide
theorem test_wf_rate_refuses_0 : (Instr.halfPeriod 0).wellFormed Config.typeCode = false := by decide
theorem test_wf_unknown_type_refuses_5 : (Instr.rxUnknown 5 0 0 []).wellFormed Config.typeCode = false := by decide
theorem test_wf_short_refuses_three_bytes : (Instr.rxShort [0, 0, 0]).wellFormed Config.typeCode = false := by decide
theorem test_wf_echo_refuses_wrong_checksum : (Instr.txEcho [0, 1, 2, 1]).wellFormed Config.typeCode = false := by decide
theorem test_wf_echo_refuses_other_type : (Instr.txEcho [1, 0, 0]).wellFormed Config.typeCode = false := by decide

/-! Decode: every frame written out byte by byte from R81 to R90. -/

/-- V-SR rows of R201 to R207. -/
theorem test_decode_rx :
    isOk (decode .rx Config.typeCode [0x00, 0x02, 0x03, 0x01, 0x02]) (.rxEcho 2 3 [1, 2]) &&
    isOk (decode .rx Config.typeCode [0x01, 0x0A, 0x0F, 0, 0, 0, 0, 2, 0, 0, 0, 0x0A, 3])
      (.rxSetup 10 15 [0, 0, 0, 0, 2, 0, 0, 0, 10, 3]) &&
    isOk (decode .rx Config.typeCode [0x02, 0x01, 0x00, 0x05]) (.rxInputs 1 0 [5]) &&
    isOk (decode .rx Config.typeCode [0x03, 0x01, 0x00]) (.rxAck 1 0 []) &&
    isOk (decode .rx Config.typeCode [0x04, 0x00, 0x00]) (.rxError 0 0 []) &&
    isOk (decode .rx Config.typeCode [0x05, 0x01, 0x41, 0x41]) (.rxTxt 1 0x41 [0x41]) &&
    isOk (decode .rx Config.typeCode [0x06, 0x02, 0x00, 0x05]) (.rxUnknown 6 2 0 [5]) &&
    isOk (decode .rx Config.typeCode [0xFF, 0x00, 0x00]) (.rxUnknown 0xFF 0 0 []) &&
    isOk (decode .rx Config.typeCode [0x01, 0x0A]) (.rxShort [1, 10]) = true := by decide

/-- V-CV-2 and V-IL-4. -/
theorem test_decode_tx :
    isOk (decode .tx Config.typeCode [0x00, 0x03, 0xFD, 0xFF, 0xFF, 0xFF]) (.txEcho [0, 3, 0xFD, 0xFF, 0xFF, 0xFF]) &&
    isOk (decode .tx Config.typeCode [0x03, 0x00, 0x00]) .txAck &&
    isOk (decode .tx Config.typeCode [0x02, 0x09, 0xEE, 0x90, 0x59, 0x02, 0x00, 0x01, 0x00, 0x00, 0x00, 0x02])
      (.txInputs 154000 1 2) &&
    isOk (decode .tx Config.typeCode [0x04, 0x03, 0xEB, 0x4F, 0x56, 0x46]) (.txError [0x4F, 0x56, 0x46]) &&
    isOk (decode .tx Config.typeCode [0x05, 0x01, 0x41, 0x41]) (.txTxt [0x41]) = true := by decide

/-- What the block never emits (R83, R86, R87, R182). -/
theorem test_decode_tx_rejects :
    isReject (decode .tx Config.typeCode [0x03, 0x00]) .shortFrame &&
    isReject (decode .tx Config.typeCode [0x05, 0x01, 0x42, 0x41]) .malformed &&
    isReject (decode .tx Config.typeCode [0x01, 0x00, 0x00]) .setupNeverEmitted &&
    isReject (decode .tx Config.typeCode [0x02, 0x00, 0x00]) .inputsLength &&
    isReject (decode .tx Config.typeCode [0x03, 0x01, 0x00, 0x00]) .ackNotEmpty &&
    isReject (decode .tx Config.typeCode [0x06, 0x00, 0x00]) .unknownType = true := by decide

/-- Another assignment changes the first byte and nothing else (R83). -/
theorem test_decode_other_codes :
    isOk (decode .rx otherCodes [0x20, 0x00, 0x00]) (.rxSetup 0 0 []) &&
    isOk (decode .rx otherCodes [0x01, 0x00, 0x00]) (.rxUnknown 1 0 0 []) = true := by decide

/-- Words of the opcode table, `type` in the highest byte, zero payload as long as `length` says (R82, R96). -/
theorem test_decode_table_word :
    decodeTableWord 24 0x000203 = some (.rxEcho 2 3 [0, 0]) ∧ decodeTableWord 24 0x010000 = some (.rxSetup 0 0 []) ∧
    decodeTableWord 24 0x020900 = some (.rxInputs 9 0 [0, 0, 0, 0, 0, 0, 0, 0, 0]) ∧
    decodeTableWord 24 0x030000 = some (.rxAck 0 0 []) ∧ decodeTableWord 24 0x040000 = some (.rxError 0 0 []) ∧
    decodeTableWord 24 0x050000 = some (.rxTxt 0 0 []) ∧ decodeTableWord 24 0xFF0000 = some (.rxUnknown 0xFF 0 0 []) := by
  decide

/-- V-CV-2, V-IL-3: the bytes of what the block emits. -/
theorem test_encode :
    Sys2Proof.encode Config.typeCode (.txInputs 1234 0xFFFFFFFF 4) =
      some [0x02, 0x09, 0xD6, 0xD2, 0x04, 0x00, 0x00, 0xFF, 0xFF, 0xFF, 0xFF, 0x04] ∧
    Sys2Proof.encode Config.typeCode .txAck = some [0x03, 0x00, 0x00] ∧
    Sys2Proof.encode Config.typeCode (.txTxt [0x41]) = some [0x05, 0x01, 0x41, 0x41] ∧
    Sys2Proof.encode Config.typeCode (.rxSetup 10 0xA1 [0x40, 0x42, 0x0F, 0, 5, 0, 0, 0, 0x0A, 1]) =
      some [0x01, 0x0A, 0xA1, 0x40, 0x42, 0x0F, 0, 5, 0, 0, 0, 0x0A, 1] := by decide

/-! EVENT operations. -/

/-- V-RST-2 and R270: from the middle of a loop and a running engine. -/
theorem test_reset : nextIs (exec .reset { high10 75000 with phase := .service }) (fun t =>
    t.phase == .tick && t.nowUs == 0 && t.pe == PulseEngine.reset && t.out == [some false] && t.port == .idle) = true := by
  decide

/-- R270 writes no output that has no pin (P3). -/
theorem test_reset_absent_output : nextIs (exec .reset { high10 0 with out := [none, some true] }) (fun t =>
    t.out == [none, some false]) = true := by decide

/-- D3: the clock wraps. -/
theorem test_adv_wraps : nextIs (exec (.adv 2) (at_ 0xFFFFFFFF)) (fun t => t.nowUs == 1) = true := by decide

/-- V-IL-1: the first two edges. -/
theorem test_edge_sets : nextIs (exec (.edge 7 true) { at_ 1240 with il := ⟨0x04, 1234, 0⟩ }) (fun t =>
    t.il == ⟨0x84, 1240, 0⟩) = true := by decide
/-- V-IL-1: the third edge; V-IL-8: an absent channel. -/
theorem test_edge_clears_and_refuses : nextIs (exec (.edge 2 false) { at_ 1240 with il := ⟨0x84, 1240, 0⟩ }) (fun t =>
    t.il == ⟨0x80, 1240, 0⟩) &&
    refusedAs (exec (.edge 5 true) { at_ 0 with params := ⟨0x0F, Config.typeCode⟩ }) .absentChannel = true := by decide

/-- V-PE-2: 49999 does not toggle, 50000 does; V-PE-4: the mark. -/
theorem test_tick_gate : nextIs (exec .tick (low10 50999)) (fun t => t.pe == (low10 50999).pe && t.phase == .drain) &&
    nextIs (exec .tick (low10 51000)) (fun t => t.pe.waveLevel && t.pe.lastToggleUs == 51000 && t.pe.pulseCount == 0 &&
      t.pe.syncAtUs == 51000 && t.pe.syncValid && t.out == [some true]) = true := by decide
/-- V-PE-12 across the wrap, with V-PE-7's commit. -/
theorem test_tick_wrap_and_commit :
    nextIs (exec .tick { high10 20000 with pe := { (high10 0).pe with lastToggleUs := 0xFFFF8AD0 } }) (fun t =>
      !t.pe.waveLevel && t.pe.lastToggleUs == 20000 && t.pe.currentRateHz == 20 && t.out == [some false]) &&
    nextIs (exec .tick { high10 19999 with pe := { (high10 0).pe with lastToggleUs := 0xFFFF8AD0 } }) (fun t =>
      t.pe.waveLevel && t.pe.currentRateHz == 10) = true := by decide

/-- V-IL-3. -/
theorem test_drain : nextIs (exec .drain latched) (fun t =>
    t.port.tx == [[0x02, 0x09, 0xD6, 0xD2, 0x04, 0x00, 0x00, 0xFF, 0xFF, 0xFF, 0xFF, 0x04]] &&
      t.il.lastObservedUs == 1234 && t.phase == .service) = true := by decide
/-- V-RST-3: DRAIN is refused in phase 0. -/
theorem test_drain_out_of_phase : refusedAs (exec .drain State.reset) .outOfPhase = true := by decide

/-- V-SR-4, the items whose frames have known bytes. -/
theorem test_service : nextIs
    (exec (.service [.frame [3, 0, 0], .overflow, .frame [0, 0, 0]]) { at_ 1000 with phase := .service }) (fun t =>
      t.port.tx.length == 2 && t.port.tx[1]? == some [0, 0, 0] && t.phase == .pollApply && t.sr == Staging.reset &&
      t.port.result == .serviced [.empty, overflowFlags, .empty]) = true := by decide

/-- V-SR-1. -/
theorem test_poll_apply : nextIs (exec .pollApply (waiting 1001999)) (fun t => t.pe == PulseEngine.reset && t.sr.stagedValid) &&
    nextIs (exec .pollApply (waiting 1002000)) (fun t => t.pe.currentRateHz == 10 && t.pe.pulseLimit == 5 &&
      !t.sr.stagedValid && t.phase == .tick) = true := by decide
/-- V-SR-2, across the wrap. -/
theorem test_poll_apply_wrap : nextIs (exec .pollApply { waiting 35 with sr := ⟨true, ⟨100, 0, 10, 0⟩, 0xFFFFFFC0⟩ }) (fun t =>
      t.sr.stagedValid) &&
    nextIs (exec .pollApply { waiting 36 with sr := ⟨true, ⟨100, 0, 10, 0⟩, 0xFFFFFFC0⟩ }) (fun t =>
      !t.sr.stagedValid) = true := by decide

/-- V-RST-3. -/
theorem test_loop_step_cycles : nextIs (exec .loopStep State.reset) (fun t => t.phase == .drain) &&
    nextIs (exec .loopStep (waiting 0)) (fun t => t.phase == .tick) = true := by decide

/-- V-IL-2. -/
theorem test_snapshot : nextIs (exec .snapshot latched) (fun t =>
    t.port.result == .latch 0x04 1234 && t.il == latched.il) = true := by decide

/-- V-PE-7: a rate change in the HIGH phase is only requested. -/
theorem test_apply_running : nextIs (exec (.apply ⟨0, 0, 30, 0x02⟩) (high10 75000)) (fun t =>
    t.pe.requestedRateHz == 30 && t.pe.currentRateHz == 10 && t.pe.waveLevel) = true := by decide
/-- V-PE-14: a stopped engine commits at once. -/
theorem test_apply_stopped : nextIs
    (exec (.apply ⟨0, 0, 0, 0x01⟩) { at_ 9 with pe := { PulseEngine.reset with pulseCount := 5, syncValid := true } }) (fun t =>
      t.pe == PulseEngine.reset) = true := by decide

/-- V-PE-10: the commit of a pending counter reset. -/
theorem test_boundary_commit : nextIs
    (exec .boundaryCommit { low10 0 with pe := { (low10 0).pe with pulseCount := 1, syncValid := true, resetPending := true } })
      (fun t => t.pe.pulseCount == 0xFFFFFFFF && !t.pe.syncValid && !t.pe.resetPending) = true := by decide

/-- V-SR, the row of the SETUP frame one byte short. -/
theorem test_handle_setup_short : nextIs (exec (.handle [0x01, 0x09, 0x0C, 0, 0, 0, 0, 2, 0, 0, 0, 0x0A]) (at_ 1000)) (fun t =>
    t.port.reports == [⟨0b00001, some 1, some 9, 9, some 10, some 0x0C, some 0x0C⟩] && t.sr == Staging.reset &&
      t.port.tx.length == 1) = true := by decide

/-- R209. -/
theorem test_stage : nextIs (exec (.stage ⟨0, 2, 10, 3⟩) (waiting 5000)) (fun t =>
    t.sr == ⟨true, ⟨0, 2, 10, 3⟩, 5000⟩) = true := by decide

/-- V-SR, the empty sequence (R208). -/
theorem test_report : nextIs (exec (.report shortFlags (.short 0 shortFlags)) (at_ 1000)) (fun t =>
    t.port.reports == [⟨0b00001, none, none, 0, none, none, none⟩] && t.sr == Staging.reset) = true := by decide

/-- V-SR, the OVERFLOW row. -/
theorem test_overflow : nextIs (exec .overflow (at_ 1000)) (fun t =>
    t.port.tx.length == 1 && t.sr == Staging.reset && overflowFlags.vector == 0b10000) = true := by decide

/-! RX operations: rows of V-SR. -/

theorem test_rx_echo : nextIs (exec (.rxEcho 2 3 [1, 2]) (at_ 1000)) (fun t => t.port.tx == [[0, 2, 3, 1, 2]]) &&
    nextIs (exec (.rxEcho 2 4 [1, 2]) (at_ 1000)) (fun t =>
      t.port.reports == [⟨0b00010, some 0, some 2, 2, none, some 4, some 3⟩]) = true := by decide
theorem test_rx_setup : nextIs (exec (.rxSetup 10 15 [0, 0, 0, 0, 2, 0, 0, 0, 10, 3]) (at_ 1000)) (fun t =>
    t.port.tx == [[3, 0, 0]] && t.sr == ⟨true, ⟨0, 2, 10, 3⟩, 1000⟩) = true := by decide
theorem test_rx_setup_bad : nextIs (exec (.rxSetup 11 15 [0, 0, 0, 0, 2, 0, 0, 0, 10, 3, 0]) (at_ 1000)) (fun t =>
      t.port.result == .flags ⟨true, false, false, false, false⟩ && t.sr == Staging.reset) &&
    nextIs (exec (.rxSetup 10 15 [0, 0, 0, 0, 2, 0, 0, 0, 10]) (at_ 1000)) (fun t =>
      t.port.reports == [⟨0b00011, some 1, some 10, 9, none, some 0x0F, some 0x0C⟩]) = true := by decide
theorem test_rx_inputs : nextIs (exec (.rxInputs 1 0 [5]) (at_ 1000)) (fun t =>
    t.port.reports == [⟨0b00110, some 2, some 1, 1, none, some 0, some 5⟩]) = true := by decide
theorem test_rx_ack : nextIs (exec (.rxAck 0 0 []) (at_ 1000)) (fun t => t.port.tx == [] && t.port.reports == []) &&
    nextIs (exec (.rxAck 1 0 []) (at_ 1000)) (fun t => t.port.result == .flags ⟨true, false, false, false, false⟩) = true := by
  decide
theorem test_rx_error : nextIs (exec (.rxError 0 0 []) (at_ 1000)) (fun t =>
    t.port.result == .flags ⟨false, false, true, false, false⟩) = true := by decide
theorem test_rx_txt : nextIs (exec (.rxTxt 1 0x41 [0x41]) (at_ 1000)) (fun t =>
    t.port.result == .flags ⟨false, false, true, false, false⟩) = true := by decide
theorem test_rx_unknown : nextIs (exec (.rxUnknown 6 2 0 [5]) (at_ 1000)) (fun t =>
    t.port.reports == [⟨0b01011, some 6, some 2, 1, none, some 0, some 5⟩]) = true := by decide
theorem test_rx_short : nextIs (exec (.rxShort [1]) (at_ 1000)) (fun t =>
    t.port.reports == [⟨0b00001, none, none, 1, none, none, none⟩]) = true := by decide

/-! TX operations: V-CV-2, V-IL-4. -/

theorem test_tx_echo : nextIs (exec (.txEcho [0, 2, 3, 1, 2]) State.reset) (fun t => t.port.tx == [[0, 2, 3, 1, 2]]) &&
    refusedAs (exec (.txEcho [0, 2, 4, 1, 2]) State.reset) .notEchoFrame = true := by decide
theorem test_tx_ack : nextIs (exec .txAck State.reset) (fun t => t.port.tx == [[3, 0, 0]]) = true := by decide
theorem test_tx_inputs : nextIs (exec (.txInputs 5000 0 0xFF) State.reset) (fun t =>
    t.port.tx == [[0x02, 0x09, 0x9A, 0x88, 0x13, 0, 0, 0, 0, 0, 0, 0xFF]]) = true := by decide
theorem test_tx_error : nextIs (exec (.txError [0x4F, 0x56, 0x46]) State.reset) (fun t =>
    t.port.tx == [[0x04, 0x03, 0xEB, 0x4F, 0x56, 0x46]]) = true := by decide
theorem test_tx_txt : nextIs (exec (.txTxt [0x41]) State.reset) (fun t => t.port.tx == [[0x05, 0x01, 0x41, 0x41]]) = true := by
  decide

/-! FUNC operations: V-CV-1 to V-CV-4, V-PE-1, S1. -/

theorem test_checksum :
    nextIs (exec (.checksum [0x78, 0x56, 0x34, 0x12, 0xF0, 0xDE, 0xBC, 0x9A, 0xAB, 0xFF]) State.reset) (fun t =>
      t.port.result == .byte 0xE2) && nextIs (exec (.checksum []) State.reset) (fun t => t.port.result == .byte 0) = true := by
  decide
theorem test_decode_func : nextIs (exec (.decode [0, 2, 3, 1, 2, 0]) State.reset) (fun t =>
    t.port.result == .decoded (.record ⟨0, 2, 3, [1, 2, 0], 3, 3, ⟨true, false, false, false, false⟩⟩)) &&
    nextIs (exec (.decode [1, 10]) State.reset) (fun t =>
      t.port.result == .decoded (.short 2 ⟨true, false, false, false, false⟩)) = true := by decide
theorem test_encode_func : nextIs (exec (.encode 0 [0xFF, 0xFF, 0xFF]) State.reset) (fun t =>
    t.port.result == .bytes [0, 3, 0xFD, 0xFF, 0xFF, 0xFF]) = true := by decide
theorem test_setup_decode :
    nextIs (exec (.setupDecode [0x78, 0x56, 0x34, 0x12, 0xF0, 0xDE, 0xBC, 0x9A, 0xAB, 0xFF]) State.reset) (fun t =>
      t.port.result == .setup ⟨0x12345678, 0x9ABCDEF0, 0xAB, 0xFF⟩) = true := by decide
theorem test_setup_encode : nextIs (exec (.setupEncode ⟨1000000, 5, 10, 1⟩) State.reset) (fun t =>
    t.port.result == .bytes [0x40, 0x42, 0x0F, 0, 5, 0, 0, 0, 0x0A, 1]) = true := by decide
theorem test_inputs_encode : nextIs (exec (.inputsEncode 300000 2 2) State.reset) (fun t =>
    t.port.result == .bytes [0xE0, 0x93, 0x04, 0, 2, 0, 0, 0, 2]) = true := by decide
theorem test_half_period : nextIs (exec (.halfPeriod 128) State.reset) (fun t => t.port.result == .micros 3906) &&
    nextIs (exec (.halfPeriod 200) State.reset) (fun t => t.port.result == .micros 2500) = true := by decide

/-! The step. -/

/-- The first step after reset services the frame of a table word (log 2, log 6). -/
theorem test_step_runs_fetch_word : nextIs (step (State.reset.withFetchWord 24 0x030000)) (fun t =>
      t.port.result == .serviced [.empty] && t.phase == .pollApply && t.env == ⟨[], []⟩) &&
    nextIs (step (State.reset.withFetchWord 24 0x000200)) (fun t => t.port.tx == [[0, 2, 0, 0, 0]]) = true := by decide

/-- V-RST-4: the first loop step of a reset machine is a TICK that changes nothing (log 2). -/
theorem test_step_from_reset : nextIs (step State.reset) (fun t => t == { State.reset with phase := .drain }) = true := by decide

/-! Witnesses: for each statement with hypotheses, a state and operands that meet them together; for a statement with
several clauses, one for each, at the boundary where there is one. -/

theorem test_witness_AdvAloneAdvancesTheClock :
    ∃ (i : Instr) (s t : State), exec i s = .next t ∧ i ≠ .reset ∧ ∀ d, i ≠ .adv d :=
  ⟨.snapshot, latched, _, rfl, by simp⟩

theorem test_witness_ElapsedIsRightAcrossOneWrap : ∃ t0 t1 : Nat, t0 ≤ t1 ∧ t1 - t0 < 2 ^ 32 ∧ 2 ^ 32 ≤ t1 :=
  ⟨2 ^ 32 - 30000, 2 ^ 32 + 20000, by decide⟩

theorem test_witness_PhaseAdvancesByLoopStepsAndNothingElse :
    (∃ t, exec .tick (low10 0) = .next t) ∧ (∃ t, exec .drain latched = .next t) ∧
    (∃ t, exec (.service []) { at_ 0 with phase := .service } = .next t) ∧ (∃ t, exec .pollApply (waiting 0) = .next t) ∧
    (∃ t, exec .loopStep State.reset = .next t) ∧ (∃ t, exec .reset (waiting 0) = .next t) ∧
    ∃ t, exec .snapshot latched = .next t :=
  ⟨⟨_, rfl⟩, ⟨_, rfl⟩, ⟨_, rfl⟩, ⟨_, rfl⟩, ⟨_, rfl⟩, ⟨_, rfl⟩, ⟨_, rfl⟩⟩

theorem test_witness_TickBeforeTheHalfPeriodChangesNothing :
    (State.reset.phase = .tick ∧ State.reset.pe.currentRateHz = 0) ∧
    ((low10 50999).phase = .tick ∧ ((low10 50999).nowUs - (low10 50999).pe.lastToggleUs).toNat <
      1000000 / (2 * (low10 50999).pe.currentRateHz.toNat)) := by decide

theorem test_witness_TickRisingEdge : ∃ s : State, s.phase = .tick ∧ s.pe.waveLevel = false ∧ s.pe.currentRateHz ≠ 0 ∧
    1000000 / (2 * s.pe.currentRateHz.toNat) = (s.nowUs - s.pe.lastToggleUs).toNat :=
  ⟨low10 51000, by decide⟩

theorem test_witness_TickFallingEdge : ∃ (s : State) (req : Byte),
    s.phase = .tick ∧ s.pe.waveLevel = true ∧ s.pe.currentRateHz ≠ 0 ∧
    1000000 / (2 * s.pe.currentRateHz.toNat) = (s.nowUs - s.pe.lastToggleUs).toNat ∧
    req = (if s.pe.pulseLimit ≠ 0 ∧ s.pe.pulseLimit.toNat ≤ s.pe.pulseCount.toNat then 0 else s.pe.requestedRateHz) :=
  ⟨high10 100000, 20, by decide⟩

theorem test_witness_BoundaryCommitCommitsOnLow :
    (low10 0).pe.waveLevel = false ∧ (high10 50000).pe.waveLevel = true := by decide

theorem test_witness_ApplyWhileRunningOnlyRequests : ∃ s : State, s.pe.currentRateHz ≠ 0 := ⟨high10 75000, by decide⟩

theorem test_witness_ApplyWhileStoppedCommitsAtOnce : ∃ s : State, s.pe.currentRateHz = 0 := ⟨State.reset, rfl⟩

theorem test_witness_EngineWrittenOnlyByItsWriters :
    (∃ t, exec (.apply ⟨0, 5, 10, 3⟩) (high10 75000) = .next t) ∧ ∃ t, exec (.edge 7 true) (high10 75000) = .next t :=
  ⟨⟨_, rfl⟩, ⟨_, rfl⟩⟩

/-- The state the step leaves. -/
def stepped (s : State) : State :=
  match step s with
  | .next t => t
  | .fault _ => s
  | .refused _ => s

def steppedN : Nat → State → State
  | 0, s => s
  | n + 1, s => stepped (steppedN n s)

theorem test_witness_RateChangesOnlyAtASafeBoundary :
    (PlainStep (high10 100000) (stepped (high10 100000)) ∧ (stepped (high10 100000)).pe.currentRateHz ≠ 10) ∧
    (PlainStep (waiting 1002000) (stepped (waiting 1002000)) ∧ (stepped (waiting 1002000)).pe.currentRateHz ≠ 0) :=
  ⟨⟨⟨rfl, by decide⟩, by decide⟩, ⟨⟨rfl, by decide⟩, by decide⟩⟩

/-- An engine at 10 Hz that rises at once, and falls one half-period later in the second loop iteration. -/
def pulsing : State :=
  { low10 51000 with env := ⟨[], [.loop [], .loop [], .loop [], .loop [], .clkAdv 50000, .loop []]⟩ }

theorem test_witness_pulsing_quiet : Relation.ReflTransGen QuietStep (steppedN 1 pulsing) (steppedN 5 pulsing) :=
  .tail (b := steppedN 4 pulsing) (.tail (b := steppedN 3 pulsing) (.tail (b := steppedN 2 pulsing) (.tail .refl
    ⟨⟨rfl, by decide⟩, rfl⟩) ⟨⟨rfl, by decide⟩, rfl⟩) ⟨⟨rfl, by decide⟩, rfl⟩) ⟨⟨rfl, by decide⟩, rfl⟩

theorem test_witness_NoPulseIsTruncated : ∃ s0 s1 s2 s3 : State, PlainStep s0 s1 ∧ RisingEdge s0 s1 ∧
    Relation.ReflTransGen QuietStep s1 s2 ∧ PlainStep s2 s3 ∧ s3.pe.waveLevel = false :=
  ⟨pulsing, steppedN 1 pulsing, steppedN 5 pulsing, steppedN 6 pulsing, ⟨rfl, by decide⟩, by decide,
    test_witness_pulsing_quiet, ⟨rfl, by decide⟩, by decide⟩

theorem test_witness_TogglesAreAHalfPeriodApart : ∃ s0 s1 s2 s3 : State, ToggleStep s0 s1 ∧
    Relation.ReflTransGen QuietStep s1 s2 ∧ ToggleStep s2 s3 :=
  ⟨pulsing, steppedN 1 pulsing, steppedN 5 pulsing, steppedN 6 pulsing, ⟨⟨rfl, by decide⟩, by decide⟩,
    test_witness_pulsing_quiet, ⟨rfl, by decide⟩, by decide⟩

/-- The steps of an undisturbed run, with the number of rising edges; `none` where the run is disturbed. -/
def walk (s : State) : Nat → Option (Nat × State)
  | 0 => some (0, s)
  | k + 1 =>
    match walk s k with
    | none => none
    | some (n, a) =>
      match step a with
      | .next b =>
        if nextTurn a ≠ .rst ∧ b.sr.stagedValid = false then
          if RisingEdge a b then some (n + 1, b) else some (n, b)
        else none
      | .fault _ => none
      | .refused _ => none

theorem walk_undisturbedRun (s : State) (k n : Nat) (t : State) (h : walk s k = some (n, t)) : UndisturbedRun s n t := by
  induction k generalizing n t with
  | zero => cases h; exact .start
  | succ k ih =>
    unfold walk at h
    cases hw : walk s k with
    | none => simp [hw] at h
    | some p =>
      obtain ⟨m, a⟩ := p
      simp only [hw] at h
      cases hs : step a with
      | next b =>
        simp only [hs] at h
        split at h
        · rename_i hq
          split at h <;> cases h
          · exact .rise _ a t (ih _ a hw) ⟨hs, hq.1⟩ hq.2 ‹_›
          · exact .other _ a t (ih _ a hw) ⟨hs, hq.1⟩ hq.2 ‹_›
        · cases h
      | fault r => cases r
      | refused r => simp [hs] at h

/-- An engine at 255 Hz (half-period 1960) with limit 1, about to rise for the first time. -/
def limited : State :=
  { State.reset with
    nowUs := 1960
    pe := { PulseEngine.reset with currentRateHz := 255, requestedRateHz := 255, pulseLimit := 1 }
    env := ⟨[], [.loop [], .loop [], .loop [], .loop [], .clkAdv 1960, .loop [], .loop [], .loop [], .loop [], .clkAdv 1960,
      .loop [], .loop [], .loop [], .loop [], .clkAdv 1960, .loop []]⟩ }

theorem test_limited_walk : (walk limited 16).map (fun p => (p.1, p.2.pe.currentRateHz)) = some (2, 0) := by decide

theorem test_witness_LimitNEmitsNPlusOnePulses : ∃ (s t : State) (n : Nat), s.pe.waveLevel = false ∧
    s.pe.pulseCount = 0xFFFFFFFF ∧ s.pe.currentRateHz ≠ 0 ∧ s.pe.requestedRateHz = s.pe.currentRateHz ∧
    s.pe.pulseLimit ≠ 0 ∧ s.pe.resetPending = false ∧ s.sr.stagedValid = false ∧ UndisturbedRun s n t ∧
    t.pe.currentRateHz = 0 := by
  have h := test_limited_walk
  cases hw : walk limited 16 with
  | none => rw [hw] at h; cases h
  | some p =>
    rw [hw] at h
    simp only [Option.map_some, Option.some.injEq, Prod.mk.injEq] at h
    exact ⟨limited, p.2, p.1, by decide, by decide, by decide, by decide, by decide, by decide, by decide,
      walk_undisturbedRun limited 16 _ _ hw, h.2⟩

theorem test_witness_HalfPeriodIsTheFloor : (1 : Byte) ≠ 0 ∧ (255 : Byte) ≠ 0 := by decide

theorem test_witness_EdgeWritesItsBitAndTheTime : ∃ (s : State) (ch k : Nat), ch = 7 ∧ ch < 8 ∧
    s.params.inPresent.getLsbD ch = true ∧ k = 0 ∧ k < 8 := ⟨latched, 7, 0, by decide⟩

theorem test_witness_OperationsOutsideTheirPreconditionAreRefused :
    (8 ≤ 8 ∧ ({ at_ 0 with params := ⟨0x0F, Config.typeCode⟩ } : State).params.inPresent.getLsbD 4 = false) ∧
    ((List.replicate 9 (0 : Byte)).length ≠ 10 ∧ (List.replicate 11 (0 : Byte)).length ≠ 10) ∧
    (5 : Byte) ∈ State.reset.params.typeCode.list ∧ 3 ≤ ([1, 2, 3] : Bytes).length := by decide

theorem test_witness_DrainSendsOneNotificationOrNone :
    (latched.phase = .drain ∧ latched.il.changedAtUs ≠ latched.il.lastObservedUs) ∧
    ({ at_ 0 with phase := .drain } : State).phase = .drain ∧
    ({ at_ 0 with phase := .drain } : State).il.changedAtUs = ({ at_ 0 with phase := .drain } : State).il.lastObservedUs := by
  decide

theorem test_witness_LatchAndStagingWrittenOnlyByTheirWriters :
    (∃ t, exec .drain latched = .next t) ∧ ∃ t, exec (.edge 0 true) latched = .next t := ⟨⟨_, rfl⟩, ⟨_, rfl⟩⟩

/-- V-IL-5 in small: an edge, a TICK, then the DRAIN that reports it. -/
def edgeComes : State := { at_ 162 with env := ⟨[], [.edge 0 true, .loop [], .loop []]⟩ }

theorem test_witness_NotificationCarriesTheLastEdge : ∃ (s0 s1 s2 s3 : State) (ch : Nat) (level : Bool) (offered : List Item),
    nextTurn s0 = .edge ch level ∧ step s0 = .next s1 ∧ Relation.ReflTransGen EdgeFreeStep s1 s2 ∧
    s2.phase = .drain ∧ nextTurn s2 = .loop offered ∧ step s2 = .next s3 ∧ s0.nowUs ≠ s2.il.lastObservedUs :=
  ⟨edgeComes, steppedN 1 edgeComes, steppedN 2 edgeComes, steppedN 3 edgeComes, 0, true, [], rfl, rfl,
    .tail .refl ⟨⟨rfl, by decide⟩, rfl⟩, rfl, rfl, rfl, by decide⟩

/-- An edge at the time last observed is not reported (V-IL-6). -/
theorem test_witness_NotificationCarriesTheLastEdge_none : ∃ s0 s1 s2 s3 : State,
    nextTurn s0 = .edge 0 true ∧ step s0 = .next s1 ∧ Relation.ReflTransGen EdgeFreeStep s1 s2 ∧
    s2.phase = .drain ∧ nextTurn s2 = .loop [] ∧ step s2 = .next s3 ∧ s0.nowUs = s2.il.lastObservedUs :=
  ⟨{ edgeComes with nowUs := 0 }, steppedN 1 { edgeComes with nowUs := 0 }, steppedN 2 { edgeComes with nowUs := 0 },
    steppedN 3 { edgeComes with nowUs := 0 }, rfl, rfl, .tail .refl ⟨⟨rfl, by decide⟩, rfl⟩, rfl, rfl, rfl, by decide⟩

theorem test_witness_EdgeBeforeOrAfterAnOperationIsTheSame : ∃ (i : Instr) (s a b : State), i ≠ .reset ∧ (∀ d, i ≠ .adv d) ∧
    (∀ c l, i ≠ .edge c l) ∧ i ≠ .snapshot ∧ i ≠ .drain ∧ (i = .loopStep → s.phase ≠ .drain) ∧
    exec i s = .next a ∧ exec (.edge 2 true) a = .next b :=
  ⟨.loopStep, low10 51000, _, _, by simp, by simp, by simp, by simp, by simp, fun _ => by decide, rfl, rfl⟩

theorem test_witness_ChecksumIgnoresOrderAndSeesAnyByteChange :
    List.Perm [(1 : Byte), 2, 3] [3, 1, 2] ∧ (0x80 : Byte) ≠ 0x00 := by decide

theorem test_witness_DecodeChecksLengthAndChecksumIndependently : ([0x01, 0x0A] : Bytes).length < 3 := by decide

theorem test_witness_EncodeFillsAFrameThatDecodes :
    (List.replicate 255 (0xFF : Byte)).length ≤ 255 ∧ 255 < (List.replicate 256 (0xFF : Byte)).length := by
  simp only [List.length_replicate]; decide

theorem test_witness_SetupRoundTrips : ([0x78, 0x56, 0x34, 0x12, 0xF0, 0xDE, 0xBC, 0x9A, 0xAB, 0xFF] : Bytes).length = 10 := by
  decide

theorem test_witness_EchoRepliesVerbatim : ∃ (length cks : Byte) (payload : Bytes), length.toNat = payload.length ∧
    cks = payload.sum := ⟨2, 3, [1, 2], by decide⟩

/-- A well-formed ACK and a malformed one (rows of V-SR). -/
theorem test_witness_AckIsAcceptedWithNoFurtherAction : State.reset.params.typeCode.Injective ∧
    (⟨decide ((0 : Byte).toNat ≠ ([] : Bytes).length), decide ((0 : Byte) ≠ ([] : Bytes).sum), false, false, false⟩ : ErrFlags) =
      .empty ∧
    (⟨decide ((1 : Byte).toNat ≠ ([] : Bytes).length), decide ((0 : Byte) ≠ ([] : Bytes).sum), false, false, false⟩ : ErrFlags) ≠
      .empty := by decide

theorem test_witness_MalformedEchoIsReported : ∃ (s : State) (length cks : Byte) (payload : Bytes) (err : ErrFlags),
    s.params.typeCode.Injective ∧
    err = ⟨decide (length.toNat ≠ payload.length), decide (cks ≠ payload.sum), false, false, false⟩ ∧ err ≠ .empty :=
  ⟨State.reset, 2, 4, [1, 2], ⟨false, true, false, false, false⟩, by decide⟩

theorem test_witness_GoodSetupIsStagedAndAcknowledged : ∃ d0 d1 d2 d3 l0 l1 l2 l3 r f cks : Byte,
    cks = d0 + d1 + d2 + d3 + l0 + l1 + l2 + l3 + r + f :=
  ⟨0x78, 0x56, 0x34, 0x12, 0xF0, 0xDE, 0xBC, 0x9A, 0xAB, 0xFF, 0xE2, by decide⟩

/-- The three ways a SETUP is bad: declared length 9, a lost byte, a wrong checksum (rows of V-SR). -/
theorem test_witness_BadSetupStagesNothing : ∃ s : State, s.params.typeCode.Injective ∧
    (∀ c ∈ [((9 : Byte), (0x0C : Byte), ([0, 0, 0, 0, 2, 0, 0, 0, 0x0A] : Bytes)),
        (10, 0x0F, [0, 0, 0, 0, 2, 0, 0, 0, 0x0A]), (10, 0x10, [0, 0, 0, 0, 2, 0, 0, 0, 0x0A, 3])],
      (⟨decide (c.1 ≠ 10 ∨ c.1.toNat ≠ c.2.2.length), decide (c.2.1 ≠ c.2.2.sum), false, false, false⟩ : ErrFlags) ≠ .empty) :=
  ⟨State.reset, by decide⟩

theorem test_witness_ReplacementForgetsTheEarlierSetup : ∃ (cks : Byte) (payload : Bytes), payload.length = 10 ∧
    cks = payload.sum := ⟨0x47, [0x50, 0xC3, 0, 0, 0, 0, 0, 0, 0x32, 2], by decide⟩

theorem test_witness_InboundInputsAndErrorAreNotImplemented :
    ∃ (s : State) (length cks : Byte) (payload : Bytes) (err : ErrFlags), s.params.typeCode.Injective ∧
    err = ⟨decide (length.toNat ≠ payload.length), decide (cks ≠ payload.sum), true, false, false⟩ :=
  ⟨State.reset, 1, 0, [5], ⟨false, true, true, false, false⟩, by decide⟩

theorem test_witness_InboundTxtIsNotImplemented :
    ∃ (s : State) (length cks : Byte) (payload : Bytes) (err : ErrFlags), s.params.typeCode.Injective ∧
    err = ⟨decide (length.toNat ≠ payload.length), decide (cks ≠ payload.sum), true, false, false⟩ :=
  ⟨{ State.reset with params := ⟨0xFF, otherCodes⟩ }, 1, 0x41, [0x41], ⟨false, false, true, false, false⟩, by decide⟩

theorem test_witness_UnrecognizedTypeIsReported : (6 : Byte) ∉ State.reset.params.typeCode.list ∧
    (⟨true, true, false, true, false⟩ : ErrFlags) =
      ⟨decide ((2 : Byte).toNat ≠ ([5] : Bytes).length), decide ((0 : Byte) ≠ ([5] : Bytes).sum), false, true, false⟩ := by decide

theorem test_witness_ShortFrameIsReportedAlone : ([1, 2] : Bytes).length < 3 := by decide

/-- A SHORT, a SETUP record of declared length 9 (with a schema length) and one of declared length 10 (without). -/
theorem test_witness_ReportSendsTheTextOfItsRecord :
    (∃ n e, decodeFrame [1, 10] = .short n e) ∧
    (∃ f, decodeFrame [1, 9, 0] = .record f ∧ frameType Config.typeCode f.type = .setup ∧ f.length ≠ 10) ∧
    ∃ f, decodeFrame [1, 10, 0] = .record f ∧ frameType Config.typeCode f.type = .setup ∧ f.length = 10 :=
  ⟨⟨_, _, rfl⟩, ⟨_, rfl, rfl, by decide⟩, ⟨_, rfl, rfl, rfl⟩⟩

theorem test_witness_RaisingAConditionChangesNoState : ∃ (t : State) (err : ErrFlags),
    exec (.handle [6, 2, 0, 5]) State.reset = .next t ∧ t.port.result = .flags err ∧ err ≠ .empty :=
  ⟨_, ⟨true, true, false, true, false⟩, rfl, rfl, by decide⟩

theorem test_witness_ConditionsThatOccurTogether : ∃ (raw : Bytes) (t : State), exec (.handle raw) State.reset = .next t ∧
    raw.length < 3 := ⟨[1, 10], _, rfl, by decide⟩

theorem test_witness_ServiceHandlesItsItemsInOrder : ∃ s : State, s.phase = .service :=
  ⟨{ at_ 1000 with phase := .service }, rfl⟩

theorem test_witness_PollApplyAppliesOnceWhenDue :
    ((waiting 1002000).phase = .pollApply ∧ (waiting 1002000).sr.stagedValid = true ∧
      (waiting 1002000).sr.staged.activationDelayUs.toNat =
        ((waiting 1002000).nowUs - (waiting 1002000).sr.stagedAtUs).toNat) ∧
    ((waiting 1001999).phase = .pollApply ∧ ((waiting 1001999).nowUs - (waiting 1001999).sr.stagedAtUs).toNat <
      (waiting 1001999).sr.staged.activationDelayUs.toNat) ∧
    ({ at_ 0 with phase := .pollApply } : State).sr.stagedValid = false := by decide

theorem test_witness_OutboundBuildersEmitTheirFrame :
    (List.replicate 255 (0x41 : Byte)).length ≤ 255 ∧ 255 < (List.replicate 256 (0x41 : Byte)).length ∧
    ((2 : Byte).toNat = ([1, 2] : Bytes).length ∧ (3 : Byte) = ([1, 2] : Bytes).sum) ∧
    ((1 : Byte) ≠ State.reset.params.typeCode.echo ∧ (3 : Byte).toNat ≠ ([1, 2] : Bytes).length ∧ (4 : Byte) ≠ ([1, 2] : Bytes).sum) ∧
    ([0, 0] : Bytes).length < 3 := by
  simp only [List.length_replicate]; decide

theorem test_witness_EveryEmittedFrameIsWellFormed : ∃ (i : Instr) (s t : State) (f : Bytes), exec i s = .next t ∧
    f ∈ t.port.tx := ⟨.drain, latched, _, _, rfl, .head _⟩

theorem test_witness_DecodingAnEncodedOperationGivesItBack : ∃ (tc : TypeCodes) (i j : Instr) (bs cs : Bytes),
    tc.Injective ∧ (i.wellFormed tc = true ∧ i.direction = some .rx ∧ encode tc i = some bs) ∧
    (j.wellFormed tc = true ∧ j.direction = some .tx ∧ encode tc j = some cs) :=
  ⟨otherCodes, .rxUnknown 0 0 0 [], .txInputs 16 3 0x80, _, _, by decide, ⟨by decide, rfl, rfl⟩, by decide, rfl, rfl⟩

theorem test_witness_EncodingADecodedFrameGivesItBack : ∃ (raw : Bytes) (i : Instr), Config.typeCode.Injective ∧
    decodeTx Config.typeCode raw = .ok i := ⟨[5, 1, 0x41, 0x41], .txTxt [0x41], by decide, rfl⟩

theorem test_witness_StepPerformsTheNextTurn :
    (State.reset.env.turns = []) ∧
    ∀ u ∈ [Turn.rst, .clkAdv 5, .edge 7 true, .loop [.overflow]],
      ({ State.reset with env := ⟨[], [u]⟩ } : State).env.turns = u :: [] := by simp [State.reset]

theorem test_witness_StepRunsTheDecodedFrame : ∃ (s : State) (raw : Bytes) (i : Instr), s.phase = .service ∧
    s.env.rx = [.frame raw] ∧ nextTurn s = .loop [] ∧ decode .rx s.params.typeCode raw = .ok i ∧
    i.wellFormed s.params.typeCode = true :=
  ⟨State.reset.withFetchWord 24 0x030000, [3, 0, 0], .rxAck 0 0 [], rfl, rfl, rfl, rfl, rfl⟩

theorem test_witness_EveryStepCompletes : ∃ s : State,
    nextTurn s = .edge 7 true ∧ (7 < 8 ∧ s.params.inPresent.getLsbD 7 = true) :=
  ⟨{ State.reset with env := ⟨[], [.edge 7 true]⟩ }, rfl, by decide⟩

theorem test_witness_EveryStepKeepsTheBlockInvariant : ∃ s t : State, BlockInvariant s ∧ step s = .next t ∧
    t.pe.waveLevel ≠ s.pe.waveLevel := ⟨pulsing, steppedN 1 pulsing, by decide, rfl, by decide⟩

theorem test_witness_ParametersNeverChange : ∃ (i : Instr) (s t : State), exec i s = .next t ∧ s.out = [none, some true] :=
  ⟨.reset, { high10 0 with out := [none, some true] }, _, rfl, rfl⟩

end Sys2Proof.Tests
end

/-!
PROOFS. Scope (spec R9): an operation within its stated precondition completes, and a term outside it is refused by a name
of its own.
-/

namespace Sys2Proof.Machine

/-! EDGE and the input pins (R161, X1). -/

theorem channelPresent_iff (s : State) (ch : Nat) :
    channelPresent s ch = true ↔ ch < 8 ∧ s.params.inPresent.getLsbD ch = true := by
  rw [channelPresent, Bool.and_eq_true, decide_eq_true_iff]

theorem channelPresent_eq_false_iff (s : State) (ch : Nat) :
    channelPresent s ch = false ↔ 8 ≤ ch ∨ s.params.inPresent.getLsbD ch = false := by
  rw [channelPresent, Bool.and_eq_false_iff, decide_eq_false_iff_not, not_lt]

/-- Which channels have a pin is a parameter, so taking a turn does not change it (R39). -/
@[simp] theorem channelPresent_takeTurn (s : State) (ch : Nat) :
    channelPresent (takeTurn s) ch = channelPresent s ch := rfl

theorem exec_edge_of_present (ch : Nat) (level : Bool) (s : State) (h : channelPresent s ch = true) :
    exec (.edge ch level) s = .next (edgeLatch ch level s.begin) :=
  (edge_eq_next_iff ch level s _).2 ⟨h, rfl⟩

theorem exec_edge_of_absent (ch : Nat) (level : Bool) (s : State) (h : channelPresent s ch = false) :
    exec (.edge ch level) s = .refused .absentChannel := by
  simp [exec, execEdge, h]

/-! Operations with bounds on their operands (R181, R183, R207; log 7). -/

theorem exec_setupDecode_of_none (payload : Bytes) (s : State) (h : decodeSetup payload = none) :
    exec (.setupDecode payload) s = .refused .setupPayloadLength := by
  simp [exec, execSetupDecode, h]

theorem exec_rxUnknown_of_recognized (type length cks : Byte) (payload : Bytes) (s : State)
    (h : frameType s.params.typeCode type ≠ .other) :
    exec (.rxUnknown type length cks payload) s = .refused .recognizedType := by
  simp [exec, execRxUnknown, h]

theorem exec_rxShort_of_header (raw : Bytes) (s : State) (h : 3 ≤ raw.length) :
    exec (.rxShort raw) s = .refused .notShort := by
  simp [exec, execRxShort, Nat.not_lt.2 h]

/-- Settles O20: each of the four preconditions, negated, selects the refusing branch of its operation. -/
theorem operationsOutsideTheirPreconditionAreRefused :
    Obligations.OperationsOutsideTheirPreconditionAreRefused := by
  intro s
  refine ⟨?edge, ?setupDecode, ?rxUnknown, ?rxShort⟩
  case edge =>
    intro ch level habsent
    exact exec_edge_of_absent ch level s ((channelPresent_eq_false_iff s ch).2 habsent)
  case setupDecode =>
    intro payload hlen
    exact exec_setupDecode_of_none payload s (decodeSetup_none payload hlen)
  case rxUnknown =>
    intro type length cks payload hmem
    have hrecognized : frameType s.params.typeCode type ≠ .other :=
      fun hother => (frameType_other_iff _ type).1 hother hmem
    exact exec_rxUnknown_of_recognized type length cks payload s hrecognized
  case rxShort =>
    intro raw hlen
    exact exec_rxShort_of_header raw s hlen

/-! Steps (R5, R9). -/

/-- The operation of a turn completes from any state in which an edge, if the turn is one, has a handler. -/
theorem exec_turnInstr_completes (u : Turn) (s : State)
    (hedge : ∀ ch level, u = .edge ch level → channelPresent s ch = true) :
    ∃ t, exec (turnInstr u) s = .next t := by
  cases u with
  | rst => exact ⟨resetAll s.begin, rfl⟩
  | clkAdv d => exact ⟨advanceClock d s.begin, rfl⟩
  | edge ch level => exact ⟨_, exec_edge_of_present ch level s (hedge ch level rfl)⟩
  | loop offered => exact ⟨advancePhase (loopBody s.begin), rfl⟩

/-- Settles O58: of the four turns only the edge has a precondition, and taking the turn keeps it. -/
theorem everyStepCompletes : Obligations.EveryStepCompletes := by
  intro s hpresent
  apply exec_turnInstr_completes
  intro ch level hturn
  rw [channelPresent_takeTurn, channelPresent_iff]
  exact hpresent ch level hturn

end Sys2Proof.Machine

/-!
PROOFS. Inbound frames (spec R200, R201): what the arm of a type does with a record that has no flag.
-/

namespace Sys2Proof.Machine

/-- A frame whose length and checksum bytes agree with its payload raises no flag (R181). -/
theorem decodeRecord_err_of_wellFormed (type length cks : Byte) (payload : Bytes)
    (hlen : length.toNat = payload.length) (hcks : cks = checksumOf payload) :
    (decodeRecord type length cks payload).err = .empty :=
  (errFlags_isEmpty_iff _).1 ((decodeRecord_isEmpty_iff ..).2 ⟨hlen, hcks⟩)

/-- The ECHO arm sends a record without a flag back as it came, and nothing is reported (R88, R200). -/
theorem runArm_echoArm_of_noFlag (r : FrameRecord) (s : State) (h : r.err = .empty) :
    runArm echoArm r s = (emit (rawOf r) s, .empty) := by
  simp [runArm, echoArm, h]

theorem exec_rxEcho (length cks : Byte) (payload : Bytes) (s : State) :
    exec (.rxEcho length cks payload) s =
      .next (withFlags (runArm echoArm (decodeRecord s.params.typeCode.echo length cks payload) s.begin)) := rfl

/-- Settles O34: the frame has no flag, so the ECHO arm emits the bytes its record was read from. -/
theorem echoRepliesVerbatim : Obligations.EchoRepliesVerbatim := by
  intro s length cks payload hlen hcks
  have hcks' : cks = checksumOf payload := hcks.trans (checksumOf_eq_sum payload).symm
  have hclean := decodeRecord_err_of_wellFormed s.params.typeCode.echo length cks payload hlen hcks'
  rw [exec_rxEcho, runArm_echoArm_of_noFlag _ _ hclean, rawOf_decodeRecord]
  rfl

end Sys2Proof.Machine

/-!
PROOFS. The Input Latch (spec R160, R162): what EDGE writes and what SNAPSHOT reads, each with its whole next state.
-/

namespace Sys2Proof.Machine

/-- EDGE is one update of the latch pair; beside it only the outputs of the operation before are cleared (R160, log 4). -/
theorem edgeLatch_begin (ch : Nat) (level : Bool) (s : State) :
    edgeLatch ch level s.begin = { s with
      il := { s.il with bits := writeInputBit s.il.bits ch level, changedAtUs := s.nowUs }
      port := .idle } := rfl

/-- An operation that only answers leaves its result on the port and every other component as it was (log 4). -/
theorem withResult_begin (r : Result) (s : State) : withResult r s.begin = { s with port := ⟨[], [], r⟩ } := rfl

/-- SNAPSHOT only answers: its result is the latch pair (R162). -/
theorem exec_snapshot (s : State) :
    exec .snapshot s = .next (withResult (.latch s.il.bits s.il.changedAtUs) s.begin) := rfl

/-- Settles O19: the bits that EDGE leaves are those of `writeInputBit`, which sets one bit and keeps the other seven. -/
theorem edgeWritesItsBitAndTheTime : Obligations.EdgeWritesItsBitAndTheTime := by
  intro s ch level hch hpin
  refine ⟨writeInputBit s.il.bits ch level, ?bits, ?nextState⟩
  case bits =>
    intro k hk
    exact writeInputBit_getLsbD s.il.bits ch k level hch hk
  case nextState =>
    have hpresent : channelPresent s ch = true := (channelPresent_iff s ch).2 ⟨hch, hpin⟩
    rw [exec_edge_of_present ch level s hpresent, edgeLatch_begin]

/-- Settles O21: SNAPSHOT is an answer alone, so only the port differs from the state before. -/
theorem snapshotReadsThePairAndDisturbsNothing : Obligations.SnapshotReadsThePairAndDisturbsNothing := by
  intro s
  rw [exec_snapshot, withResult_begin]

end Sys2Proof.Machine

/-!
PROOFS. The message codec (spec R180, R183, R185): the values of the pure functions, each the result of its operation.
-/

namespace Sys2Proof.Machine

/-! Each codec operation only answers (R180, R183, R185). -/

theorem exec_checksum (payload : Bytes) (s : State) :
    exec (.checksum payload) s = .next (withResult (.byte (checksumOf payload)) s.begin) := rfl

theorem exec_setupDecode_of_some (payload : Bytes) (cfg : SetupCfg) (s : State) (h : decodeSetup payload = some cfg) :
    exec (.setupDecode payload) s = .next (withResult (.setup cfg) s.begin) := by
  simp [exec, execSetupDecode, pureResult, h]

theorem exec_inputsEncode (t c : Word) (b : Byte) (s : State) :
    exec (.inputsEncode t c b) s = .next (withResult (.bytes (encodeInputs t c b)) s.begin) := rfl

/-! The values they answer with. -/

/-- The byte sum wraps at every addition; wrapping once, at the end, gives the same byte (R180). -/
theorem checksumOf_toNat (payload : Bytes) :
    (checksumOf payload).toNat = (payload.map BitVec.toNat).sum % 256 := by
  induction payload with
  | nil => rfl
  | cons b rest ih =>
    calc (checksumOf (b :: rest)).toNat
        = (b.toNat + (checksumOf rest).toNat) % 256 := by rw [checksumOf_cons, BitVec.toNat_add]
      _ = (b.toNat + (rest.map BitVec.toNat).sum % 256) % 256 := by rw [ih]
      _ = (b.toNat + (rest.map BitVec.toNat).sum) % 256 := Nat.add_mod_mod ..
      _ = ((b :: rest).map BitVec.toNat).sum % 256 := by rw [List.map_cons, List.sum_cons]

theorem checksumOf_eq_ofNat (payload : Bytes) :
    checksumOf payload = BitVec.ofNat 8 ((payload.map BitVec.toNat).sum % 256) := by
  rw [← checksumOf_toNat, BitVec.ofNat_toNat, BitVec.setWidth_eq]

/-- A u32 field weighs its four bytes by powers of 256, least significant first (R92). -/
theorem leValue_four (b0 b1 b2 b3 : Byte) :
    leValue [b0, b1, b2, b3] = b0.toNat + 256 * b1.toNat + 65536 * b2.toNat + 16777216 * b3.toNat := by
  simp only [leValue]
  omega

/-- Settles O26: the only component CHECKSUM writes is its result, whose value is the sum taken modulo 256. -/
theorem checksumIsTheSumModulo256 : Obligations.ChecksumIsTheSumModulo256 := by
  intro s payload
  rw [exec_checksum, withResult_begin, checksumOf_eq_ofNat]

/-- Settles O30: ten bytes always decode, and the two u32 fields are the little-endian values of their four bytes. -/
theorem setupDecodeReadsTheFourFields : Obligations.SetupDecodeReadsTheFourFields := by
  intro s d0 d1 d2 d3 l0 l1 l2 l3 r f
  have hdecode := decodeSetup_ten d0 d1 d2 d3 l0 l1 l2 l3 r f
  rw [exec_setupDecode_of_some _ _ s hdecode, withResult_begin, leValue_four, leValue_four]

/-- Settles O32: the result is the encoded payload, whose nine bytes are those of the two u32 fields and the bits. -/
theorem inputsEncodeWritesTheThreeFields : Obligations.InputsEncodeWritesTheThreeFields := by
  intro s t c b
  rw [exec_inputsEncode, withResult_begin, encodeInputs_bytes]

end Sys2Proof.Machine

/-!
PROOFS. Staging and inbound frames without an action (spec R203 to R205, R207, R209): STAGE, and the arms that only collect
flags, whose whole effect is the report of what they raise.
-/

namespace Sys2Proof.Machine

/-! STAGE (R209). -/

theorem exec_stage (cfg : SetupCfg) (s : State) : exec (.stage cfg) s = .next (stageCfg cfg s.begin) := rfl

/-- STAGE writes the staging register whole, so nothing of the earlier configuration is left in it (R209). -/
theorem stageCfg_begin (cfg : SetupCfg) (s : State) :
    stageCfg cfg s.begin = { s with
      sr := { stagedValid := true, staged := cfg, stagedAtUs := s.nowUs }
      port := .idle } := rfl

/-- Settles O49: STAGE is one write of the staging register, stamped with the time of receipt. -/
theorem stageOverwritesAndRestartsTheDelay : Obligations.StageOverwritesAndRestartsTheDelay := by
  intro s cfg
  rw [exec_stage, stageCfg_begin]

/-! The inbound operations, each its arm on the record of its type (R200). -/

theorem exec_rxAck (length cks : Byte) (payload : Bytes) (s : State) :
    exec (.rxAck length cks payload) s = inbound ackArm s.params.typeCode.ack length cks payload s := rfl

theorem exec_rxInputs (length cks : Byte) (payload : Bytes) (s : State) :
    exec (.rxInputs length cks payload) s =
      inbound notImplementedArm s.params.typeCode.inputs length cks payload s := rfl

theorem exec_rxError (length cks : Byte) (payload : Bytes) (s : State) :
    exec (.rxError length cks payload) s =
      inbound notImplementedArm s.params.typeCode.error length cks payload s := rfl

theorem exec_rxUnknown_of_other (type length cks : Byte) (payload : Bytes) (s : State)
    (h : frameType s.params.typeCode type = .other) :
    exec (.rxUnknown type length cks payload) s = inbound unknownArm type length cks payload s := by
  simp [exec, execRxUnknown, h]

/-! Flags and reports (R181, R200, R208). -/

theorem decodeRecord_err_sum (type length cks : Byte) (payload : Bytes) :
    (decodeRecord type length cks payload).err =
      ⟨decide (length.toNat ≠ payload.length), decide (cks ≠ payload.sum), false, false, false⟩ := by
  rw [decodeRecord_err, checksumOf_eq_sum]

/-- Only a SETUP has a schema length to report (R208, log 11). -/
theorem reportRecord_of_not_setup (tc : TypeCodes) (err : ErrFlags) (type length cks : Byte) (payload : Bytes)
    (htype : frameType tc type ≠ .setup) :
    reportRecord tc err (.record (decodeRecord type length cks payload)) =
      ⟨err.vector, some type, some length, payload.length, none, some cks, some payload.sum⟩ := by
  simp [reportRecord, htype, checksumOf_eq_sum]

/-- A report as the whole of an operation: one ERROR frame, its record and the flag set; no state element changes (R241). -/
theorem withFlags_reportCondition_begin (err : ErrFlags) (r : DecodeResult) (rep : Report) (s : State)
    (hrep : reportRecord s.params.typeCode err r = rep) :
    withFlags (reportCondition err r s.begin, err) = { s with
      port := ⟨[encodeFrame s.params.typeCode.error (Config.errText rep)], [rep], .flags err⟩ } := by
  subst hrep
  rfl

/-! An arm that leaves the state as it is (R200). -/

section NoAction

variable {arm : FrameRecord → State → State × ErrFlags} {type length cks : Byte} {payload : Bytes} {s : State}
  {err : ErrFlags}

/-- With no flag such a frame passes unanswered. -/
theorem inbound_of_noAction_of_noFlag
    (harm : arm (decodeRecord type length cks payload) s.begin = (s.begin, err)) (herr : err = .empty) :
    inbound arm type length cks payload s = .next { s with port := ⟨[], [], .flags .empty⟩ } := by
  subst herr
  simp [inbound, runArm, harm, withFlags, withResult_begin]

/-- With a flag all it does is the report of the flags the arm collected. -/
theorem inbound_of_noAction_of_flag {rep : Report}
    (harm : arm (decodeRecord type length cks payload) s.begin = (s.begin, err)) (herr : err.isEmpty = false)
    (htype : frameType s.params.typeCode type ≠ .setup)
    (hrep : rep = ⟨err.vector, some type, some length, payload.length, none, some cks, some payload.sum⟩) :
    inbound arm type length cks payload s = .next { s with
      port := ⟨[encodeFrame s.params.typeCode.error (Config.errText rep)], [rep], .flags err⟩ } := by
  have hrecord := (reportRecord_of_not_setup s.params.typeCode err type length cks payload htype).trans hrep.symm
  rw [← withFlags_reportCondition_begin err _ rep s hrecord]
  simp [inbound, runArm, harm, herr]

end NoAction

/-! The three arms without an action, with the flags each collects (R203 to R207). -/

theorem ackArm_decodeRecord (type length cks : Byte) (payload : Bytes) (s : State) :
    ackArm (decodeRecord type length cks payload) s =
      (s, ⟨decide (length.toNat ≠ payload.length), decide (cks ≠ payload.sum), false, false, false⟩) := by
  rw [ackArm, decodeRecord_err_sum]

theorem notImplementedArm_decodeRecord (type length cks : Byte) (payload : Bytes) (s : State) :
    notImplementedArm (decodeRecord type length cks payload) s =
      (s, ⟨decide (length.toNat ≠ payload.length), decide (cks ≠ payload.sum), true, false, false⟩) := by
  rw [notImplementedArm, decodeRecord_err_sum, raiseNotImplemented]

theorem unknownArm_decodeRecord (type length cks : Byte) (payload : Bytes) (s : State) :
    unknownArm (decodeRecord type length cks payload) s =
      (s, ⟨decide (length.toNat ≠ payload.length), decide (cks ≠ payload.sum), false, true, false⟩) := by
  rw [unknownArm, decodeRecord_err_sum, raiseUnknownType]

/-- A recognized type that is not implemented inbound is always reported, well-formed or not (R203, R205, R206). -/
theorem inbound_notImplementedArm (type length cks : Byte) (payload : Bytes) (s : State) (err : ErrFlags) (rep : Report)
    (htype : frameType s.params.typeCode type ≠ .setup)
    (herr : err = ⟨decide (length.toNat ≠ payload.length), decide (cks ≠ payload.sum), true, false, false⟩)
    (hrep : rep = ⟨err.vector, some type, some length, payload.length, none, some cks, some payload.sum⟩) :
    inbound notImplementedArm type length cks payload s = .next { s with
      port := ⟨[encodeFrame s.params.typeCode.error (Config.errText rep)], [rep], .flags err⟩ } := by
  subst herr
  have harm := notImplementedArm_decodeRecord type length cks payload s.begin
  exact inbound_of_noAction_of_flag harm (raiseNotImplemented_isEmpty ⟨_, _, false, false, false⟩) htype hrep

/-- Settles O35: the ACK arm keeps the state and the flags of DECODE, so only a malformed ACK is answered, by its report. -/
theorem ackIsAcceptedWithNoFurtherAction : Obligations.AckIsAcceptedWithNoFurtherAction := by
  intro s length cks payload err rep hinj herr hrep
  obtain ⟨-, -, -, hack, -, -⟩ := frameType_of_injective s.params.typeCode hinj
  have harm : ackArm (decodeRecord s.params.typeCode.ack length cks payload) s.begin = (s.begin, err) := by
    rw [ackArm_decodeRecord, herr]
  rw [exec_rxAck]
  by_cases hclean : err = .empty
  case pos =>
    rw [if_pos hclean]
    exact inbound_of_noAction_of_noFlag harm hclean
  case neg =>
    rw [if_neg hclean]
    have hflag : err.isEmpty = false := Bool.eq_false_iff.2 (mt (errFlags_isEmpty_iff err).1 hclean)
    exact inbound_of_noAction_of_flag harm hflag (by simp [hack]) hrep

/-- Settles O40: INPUTS and ERROR share the arm that is not implemented, and neither code is that of SETUP. -/
theorem inboundInputsAndErrorAreNotImplemented : Obligations.InboundInputsAndErrorAreNotImplemented := by
  intro s length cks payload err rep hinj herr
  obtain ⟨-, -, hinputs, -, herror, -⟩ := frameType_of_injective s.params.typeCode hinj
  constructor
  case left =>
    intro hrep
    rw [exec_rxInputs]
    exact inbound_notImplementedArm _ length cks payload s err rep (by simp [hinputs]) herr hrep
  case right =>
    intro hrep
    rw [exec_rxError]
    exact inbound_notImplementedArm _ length cks payload s err rep (by simp [herror]) herr hrep

/-- Settles O42: a type outside the six takes the last arm, which adds UNKNOWN_TYPE to the flags of DECODE. -/
theorem unrecognizedTypeIsReported : Obligations.UnrecognizedTypeIsReported := by
  intro s type length cks payload err rep hmem herr hrep
  have hother : frameType s.params.typeCode type = .other := (frameType_other_iff _ type).2 hmem
  have harm := unknownArm_decodeRecord type length cks payload s.begin
  rw [exec_rxUnknown_of_other type length cks payload s hother]
  subst herr
  exact inbound_of_noAction_of_flag harm (raiseUnknownType_isEmpty ⟨_, _, false, false, false⟩) (by simp [hother]) hrep

end Sys2Proof.Machine

/-!
PROOFS. The block's invariants (spec R45): each operation of a step leaves them, in one of two shapes. Either the engine
runs, and then only the outputs and the absent bits matter, or the wave is LOW with no counter reset pending.
-/

namespace Sys2Proof.Machine

/-- On a running engine only (b) and (e) of R45 say anything. -/
theorem blockInvariant_of_running {s : State} (hrate : s.pe.currentRateHz ≠ 0) (hout : OutputsFollowWave s)
    (habsent : AbsentBitsClear s) : BlockInvariant s :=
  ⟨fun hzero => absurd hzero hrate, hout, fun _ => hrate, fun _ => hrate, habsent⟩

/-- With the wave LOW and nothing pending, (a), (c) and (d) of R45 hold at any rate. -/
theorem blockInvariant_of_low {s : State} (hlow : s.pe.waveLevel = false) (hpending : s.pe.resetPending = false)
    (hout : OutputsFollowWave s) (habsent : AbsentBitsClear s) : BlockInvariant s := by
  refine ⟨fun _ => hlow, hout, fun h => ?_, fun h => ?_, habsent⟩
  · rw [hpending] at h; cases h
  · rw [hlow] at h; cases h

/-- The invariants read the engine, the outputs, the pins and the latch bits, and nothing else. -/
theorem blockInvariant_congr {s t : State} (hpe : t.pe = s.pe) (hout : t.out = s.out) (hparams : t.params = s.params)
    (hbits : t.il.bits = s.il.bits) (h : BlockInvariant s) : BlockInvariant t := by
  unfold BlockInvariant RateZeroIsLow OutputsFollowWave PendingOnlyRunning HighOnlyRunning AbsentBitsClear
  rw [hpe, hout, hparams, hbits]
  exact h

theorem blockInvariant_resetAll (s : State) : BlockInvariant (resetAll s) :=
  blockInvariant_of_low rfl rfl (fun o ho => driveOutputs_mem false s.out o ho)
    (fun ch _ => BitVec.getLsbD_zero (i := ch))

theorem blockInvariant_edgeLatch (ch : Nat) (level : Bool) (s : State) (hpresent : channelPresent s ch = true)
    (h : BlockInvariant s) : BlockInvariant (edgeLatch ch level s) := by
  obtain ⟨hzero, hout, hpending, hhigh, habsent⟩ := h
  obtain ⟨hch, hpin⟩ := (channelPresent_iff s ch).1 hpresent
  refine ⟨hzero, hout, hpending, hhigh, ?_⟩
  intro k hk
  have hne : (k : Nat) ≠ ch := by
    rintro rfl
    exact Bool.false_ne_true (hk.symm.trans hpin)
  rw [edgeLatch_il, writeInputBit_getLsbD s.il.bits ch k level hch k.isLt, if_neg hne]
  exact habsent k hk

theorem blockInvariant_tickEngine (s : State) (h : BlockInvariant s) : BlockInvariant (tickEngine s) := by
  cases hgate : togglesNow s with
  | false => rwa [tickEngine, if_neg (by simp [hgate])]
  | true =>
    obtain ⟨-, -, -, -, habsent⟩ := h
    obtain ⟨hrate, -⟩ := (togglesNow_iff s).1 hgate
    cases hwave : s.pe.waveLevel with
    | false =>
      rw [tickEngine_rising s hwave hgate]
      exact blockInvariant_of_running hrate (driveOutputs_mem true s.out) habsent
    | true =>
      rw [tickEngine_falling s hwave hgate _ rfl]
      exact blockInvariant_of_low rfl rfl (driveOutputs_mem false s.out) habsent

theorem blockInvariant_applyCfg (cfg : SetupCfg) (s : State) (h : BlockInvariant s) :
    BlockInvariant (applyCfg cfg s) := by
  obtain ⟨hzero, hout, -, -, habsent⟩ := h
  rw [applyCfg_eq]
  split
  case isTrue hstopped => exact blockInvariant_of_low (hzero hstopped) rfl hout habsent
  case isFalse hrunning => exact blockInvariant_of_running hrunning hout habsent

theorem blockInvariant_pollStaged (s : State) (h : BlockInvariant s) : BlockInvariant (pollStaged s) := by
  rcases pollStaged_cases s with ⟨-, hpoll⟩ | ⟨-, hpoll⟩ <;> rw [hpoll]
  · exact blockInvariant_congr rfl rfl rfl rfl (blockInvariant_applyCfg s.sr.staged s h)
  · exact h

theorem blockInvariant_drainLatch (s : State) (h : BlockInvariant s) : BlockInvariant (drainLatch s) := by
  obtain ⟨il, port, hdrain, hbits, -⟩ := drainLatch_frame s
  rw [hdrain]
  exact blockInvariant_congr (s := s) rfl rfl rfl hbits h

/-- Settles O59: by cases on what the step did, each operation by its own lemma above. -/
theorem everyStepKeepsTheBlockInvariant : Obligations.EveryStepKeepsTheBlockInvariant := by
  intro s t hs hstep
  have hbegin : BlockInvariant (takeTurn s).begin := blockInvariant_congr rfl rfl rfl rfl hs
  have hphase : ∀ {a : State}, BlockInvariant a → BlockInvariant (advancePhase a) :=
    fun h => blockInvariant_congr rfl rfl rfl rfl h
  cases step_effect s t hstep with
  | rst _ ht => exact ht ▸ blockInvariant_resetAll _
  | adv d _ ht => exact ht ▸ blockInvariant_congr rfl rfl rfl rfl hbegin
  | edge ch level _ hpresent ht => exact ht ▸ blockInvariant_edgeLatch ch level _ hpresent hbegin
  | tick _ _ _ ht => exact ht ▸ hphase (blockInvariant_tickEngine _ hbegin)
  | drain _ _ _ ht => exact ht ▸ hphase (blockInvariant_drainLatch _ hbegin)
  | service _ _ _ ht =>
    obtain ⟨sr, port, env, rfl⟩ := ht
    exact blockInvariant_congr rfl rfl rfl rfl hs
  | poll _ _ _ ht => exact ht ▸ hphase (blockInvariant_pollStaged _ hbegin)

end Sys2Proof.Machine

/-!
PROOFS. What a step does to the Pulse Engine (spec R123 to R132): it toggles with the gate open, or a due configuration is
applied, or the engine stays. The laws about toggles and rates are read off this.
-/

namespace Sys2Proof.Machine

/-! A tick and an APPLY read the engine, a tick the clock and the outputs too; nothing else makes a difference. -/

section Congr

variable {s t : State} (hpe : t.pe = s.pe) (hnow : t.nowUs = s.nowUs) (hout : t.out = s.out)

include hpe hnow in
theorem togglesNow_congr : togglesNow t = togglesNow s := by rw [togglesNow, togglesNow, hpe, hnow]

include hpe hnow in
theorem tickEngine_pe_congr : (tickEngine t).pe = (tickEngine s).pe := by
  have hgates := togglesNow_congr hpe hnow
  cases hgate : togglesNow s with
  | false => simpa [tickEngine, hgates, hgate] using hpe
  | true =>
    cases hwave : s.pe.waveLevel with
    | false =>
      rw [tickEngine_rising s hwave hgate, tickEngine_rising t (hpe ▸ hwave) (hgates.trans hgate), hpe, hnow]
    | true =>
      rw [tickEngine_falling s hwave hgate _ rfl, tickEngine_falling t (hpe ▸ hwave) (hgates.trans hgate) _ rfl, hpe,
        hnow]

include hpe hnow hout in
theorem tickEngine_out_congr : (tickEngine t).out = (tickEngine s).out := by
  have hgates := togglesNow_congr hpe hnow
  cases hgate : togglesNow s with
  | false => simpa [tickEngine, hgates, hgate] using hout
  | true =>
    cases hwave : s.pe.waveLevel with
    | false => rw [tickEngine_rising s hwave hgate, tickEngine_rising t (hpe ▸ hwave) (hgates.trans hgate), hout]
    | true =>
      rw [tickEngine_falling s hwave hgate _ rfl, tickEngine_falling t (hpe ▸ hwave) (hgates.trans hgate) _ rfl, hout]

include hpe in
theorem applyCfg_pe_congr (cfg : SetupCfg) : (applyCfg cfg t).pe = (applyCfg cfg s).pe := by
  rw [applyCfg_eq, applyCfg_eq, hpe]
  by_cases hzero : s.pe.currentRateHz = 0
  · rw [if_pos hzero, if_pos hzero]
  · rw [if_neg hzero, if_neg hzero]

end Congr

/-- What a step that is no RESET does to the engine. -/
inductive EngineEffect (s t : State) : Prop where
  | same (h : t.pe = s.pe)
  | toggle (hgate : togglesNow s = true) (h : t.pe = (tickEngine s).pe)
  | apply (hphase : s.phase = .pollApply) (hdue : stagedDue s = true) (h : t.pe = (applyCfg s.sr.staged s).pe)

theorem plainStep_engineEffect {s t : State} (h : PlainStep s t) : EngineEffect s t := by
  obtain ⟨hstep, hturn⟩ := h
  cases step_effect s t hstep with
  | rst hrst _ => exact absurd hrst hturn
  | adv d _ ht => exact .same (ht ▸ rfl)
  | edge ch level _ _ ht => exact .same (ht ▸ rfl)
  | tick _ _ _ ht =>
    have hpe : t.pe = (tickEngine s).pe := by rw [ht]; exact tickEngine_pe_congr (s := s) (t := (takeTurn s).begin) rfl rfl
    cases hgate : togglesNow s with
    | false => exact .same (by rw [hpe, tickEngine, if_neg (by simp [hgate])])
    | true => exact .toggle hgate hpe
  | drain _ _ _ ht =>
    obtain ⟨il, port, hdrain, -⟩ := drainLatch_frame (takeTurn s).begin
    exact .same (by rw [ht, hdrain]; rfl)
  | service _ _ _ ht =>
    obtain ⟨sr, port, env, rfl⟩ := ht
    exact .same rfl
  | poll _ _ hphase ht =>
    rcases pollStaged_cases (takeTurn s).begin with ⟨hdue, hpoll⟩ | ⟨-, hpoll⟩ <;> rw [hpoll] at ht
    · exact .apply hphase hdue (by rw [ht]; exact applyCfg_pe_congr (s := s) (t := (takeTurn s).begin) rfl s.sr.staged)
    · exact .same (by rw [ht]; rfl)

/-! Toggles (R124, R130 to R132). -/

theorem tickEngine_waveLevel (s : State) (hgate : togglesNow s = true) :
    (tickEngine s).pe.waveLevel = !s.pe.waveLevel := by
  cases hwave : s.pe.waveLevel with
  | false => rw [tickEngine_rising s hwave hgate]; rfl
  | true => rw [tickEngine_falling s hwave hgate _ rfl]; rfl

theorem tickEngine_lastToggleUs (s : State) (hgate : togglesNow s = true) :
    (tickEngine s).pe.lastToggleUs = s.nowUs := by
  cases hwave : s.pe.waveLevel with
  | false => rw [tickEngine_rising s hwave hgate]
  | true => rw [tickEngine_falling s hwave hgate _ rfl]

/-- A step toggles only by TICK with its gate open. -/
theorem toggleStep_gate {s t : State} (h : ToggleStep s t) : togglesNow s = true ∧ t.pe = (tickEngine s).pe := by
  obtain ⟨hplain, hlevel⟩ := h
  cases plainStep_engineEffect hplain with
  | same hpe => exact absurd (by rw [hpe]) hlevel
  | toggle hgate hpe => exact ⟨hgate, hpe⟩
  | apply _ _ hpe => exact absurd (by rw [hpe, applyCfg_waveLevel]) hlevel

/-- A quiet step leaves the engine or applies a configuration to it. -/
theorem quietStep_pe {s t : State} (h : QuietStep s t) : t.pe = s.pe ∨ t.pe = (applyCfg s.sr.staged s).pe := by
  obtain ⟨hplain, hlevel⟩ := h
  cases plainStep_engineEffect hplain with
  | same hpe => exact .inl hpe
  | toggle hgate hpe =>
    rw [hpe, tickEngine_waveLevel s hgate] at hlevel
    exact absurd hlevel (Bool.not_ne_self _)
  | apply _ _ hpe => exact .inr hpe

theorem applyCfg_currentRateHz_of_running (cfg : SetupCfg) (s : State) (hrate : s.pe.currentRateHz ≠ 0) :
    (applyCfg cfg s).pe.currentRateHz = s.pe.currentRateHz := by
  rw [applyCfg_eq, if_neg hrate]

theorem quietStep_lastToggleUs {s t : State} (h : QuietStep s t) : t.pe.lastToggleUs = s.pe.lastToggleUs := by
  rcases quietStep_pe h with hpe | hpe <;> simp [hpe]

theorem quietStep_currentRateHz {s t : State} (h : QuietStep s t) (hrate : s.pe.currentRateHz ≠ 0) :
    t.pe.currentRateHz = s.pe.currentRateHz := by
  rcases quietStep_pe h with hpe | hpe <;> rw [hpe]
  exact applyCfg_currentRateHz_of_running _ s hrate

/-! The same along a run of quiet steps. -/

theorem quietRun_lastToggleUs {s t : State} (h : Relation.ReflTransGen QuietStep s t) :
    t.pe.lastToggleUs = s.pe.lastToggleUs := by
  induction h with
  | refl => rfl
  | tail _ hstep ih => exact (quietStep_lastToggleUs hstep).trans ih

theorem quietRun_waveLevel {s t : State} (h : Relation.ReflTransGen QuietStep s t) :
    t.pe.waveLevel = s.pe.waveLevel := by
  induction h with
  | refl => rfl
  | tail _ hstep ih => exact hstep.2.trans ih

theorem quietRun_currentRateHz {s t : State} (h : Relation.ReflTransGen QuietStep s t)
    (hrate : s.pe.currentRateHz ≠ 0) : t.pe.currentRateHz = s.pe.currentRateHz := by
  induction h with
  | refl => rfl
  | tail _ hstep ih => exact (quietStep_currentRateHz hstep (ih ▸ hrate)).trans ih

/-- Settles O16: the first toggle samples the time, no quiet step moves it, and the second toggle's gate measures from it. -/
theorem togglesAreAHalfPeriodApart : Obligations.TogglesAreAHalfPeriodApart := by
  intro s0 s1 s2 s3 hfirst hquiet hsecond
  obtain ⟨hgate0, hpe1⟩ := toggleStep_gate hfirst
  obtain ⟨hgate2, -⟩ := toggleStep_gate hsecond
  obtain ⟨hrate, helapsed⟩ := (togglesNow_iff s2).1 hgate2
  have hlast : s2.pe.lastToggleUs = s0.nowUs := by
    rw [quietRun_lastToggleUs hquiet, hpe1, tickEngine_lastToggleUs s0 hgate0]
  exact ⟨hrate, hlast ▸ helapsed⟩

/-- Settles O15: a rise needs a running engine, whose rate no quiet step changes; the fall is a toggle, so O16 spaces it. -/
theorem noPulseIsTruncated : Obligations.NoPulseIsTruncated := by
  intro s0 s1 s2 hplain hrise hquiet
  obtain ⟨hlow, hhigh⟩ := hrise
  have hfirst : ToggleStep s0 s1 := ⟨hplain, by rw [hlow, hhigh]; decide⟩
  obtain ⟨hgate, hpe1⟩ := toggleStep_gate hfirst
  obtain ⟨hrate0, -⟩ := (togglesNow_iff s0).1 hgate
  have hrate1 : s1.pe.currentRateHz = s0.pe.currentRateHz := by rw [hpe1, tickEngine_rising s0 hlow hgate]
  have hrate2 : s2.pe.currentRateHz = s0.pe.currentRateHz :=
    (quietRun_currentRateHz hquiet (hrate1 ▸ hrate0)).trans hrate1
  refine ⟨hrate2, hrate2 ▸ hrate0, ?_⟩
  intro s3 hlast hfall
  have hhigh2 : s2.pe.waveLevel = true := (quietRun_waveLevel hquiet).trans hhigh
  have hsecond : ToggleStep s2 s3 := ⟨hlast, by rw [hfall, hhigh2]; decide⟩
  rw [← hrate2]
  exact (togglesAreAHalfPeriodApart s0 s1 s2 s3 hfirst hquiet hsecond).2

/-- Settles O14: a rise keeps the rate, and an APPLY changes it only on a stopped engine. -/
theorem rateChangesOnlyAtASafeBoundary : Obligations.RateChangesOnlyAtASafeBoundary := by
  intro s t hplain hrate
  cases plainStep_engineEffect hplain with
  | same hpe => exact absurd (by rw [hpe]) hrate
  | toggle hgate hpe =>
    left
    cases hwave : s.pe.waveLevel with
    | false => exact absurd (by rw [hpe, tickEngine_rising s hwave hgate]) hrate
    | true => exact ⟨rfl, by rw [hpe, tickEngine_waveLevel s hgate, hwave]; rfl⟩
  | apply hphase hdue hpe =>
    right
    have hstopped : s.pe.currentRateHz = 0 := by
      by_contra hrunning
      exact hrate (by rw [hpe, applyCfg_currentRateHz_of_running _ s hrunning])
    obtain ⟨hvalid, hdelay⟩ := (stagedDue_iff s).1 hdue
    have hnew : t.pe.currentRateHz = s.sr.staged.targetPulseRateHz := by rw [hpe, applyCfg_eq, if_pos hstopped]
    exact ⟨hstopped, by rw [hphase]; rfl, hvalid, hdelay, hnew, by rw [hpe, applyCfg_waveLevel]⟩

end Sys2Proof.Machine

/-!
PROOFS. A pulse limit (spec R126, R136): where a run in which nothing is staged can stand after `n` rising edges. The three
places are the LOW phase before rise `n + 1`, the HIGH phase after rise `n`, and the stop after rise `limit + 1`.
-/

namespace Sys2Proof.Machine

/-- The engine after `n` rising edges from the sentinel count, under a nonzero limit and with nothing staged. -/
inductive PulseTrain (limit : Word) (n : Nat) (pe : PulseEngine) : Prop where
  | low (hwave : pe.waveLevel = false) (hrate : pe.currentRateHz ≠ 0) (hreq : pe.requestedRateHz = pe.currentRateHz)
      (hcount : pe.pulseCount + 1 = BitVec.ofNat 32 n) (hn : n ≤ limit.toNat)
  | high (hwave : pe.waveLevel = true) (hrate : pe.currentRateHz ≠ 0)
      (hreq : pe.requestedRateHz = if n = limit.toNat + 1 then 0 else pe.currentRateHz)
      (hcount : pe.pulseCount.toNat + 1 = n) (hn : n ≤ limit.toNat + 1)
  | stopped (hwave : pe.waveLevel = false) (hrate : pe.currentRateHz = 0) (hcount : pe.pulseCount = limit)
      (hn : n = limit.toNat + 1)

/-- What such a run keeps all along: the limit, no pending counter reset, nothing staged, and the train. -/
structure LimitedRun (limit : Word) (n : Nat) (s : State) : Prop where
  limit_eq : s.pe.pulseLimit = limit
  not_pending : s.pe.resetPending = false
  not_staged : s.sr.stagedValid = false
  train : PulseTrain limit n s.pe

/-- Nothing is staged, so the engine stays or toggles (R130). -/
theorem plainStep_engine_of_not_staged {s t : State} (h : PlainStep s t) (hstaged : s.sr.stagedValid = false) :
    t.pe = s.pe ∨ (togglesNow s = true ∧ t.pe = (tickEngine s).pe) := by
  cases plainStep_engineEffect h with
  | same hpe => exact .inl hpe
  | toggle hgate hpe => exact .inr ⟨hgate, hpe⟩
  | apply _ hdue _ =>
    obtain ⟨hvalid, -⟩ := (stagedDue_iff s).1 hdue
    exact absurd (hstaged.symm.trans hvalid) Bool.false_ne_true

section Toggle

variable {limit : Word} {n : Nat} {s : State}

/-- A rise counts the pulse, and the limit clears the request at pulse `limit + 1` exactly (R124, R126). -/
theorem PulseTrain.rise (hlimit : s.pe.pulseLimit = limit) (hne : limit ≠ 0) (hwave : s.pe.waveLevel = false)
    (hgate : togglesNow s = true) (h : PulseTrain limit n s.pe) : PulseTrain limit (n + 1) (tickEngine s).pe := by
  obtain ⟨hrate, -⟩ := (togglesNow_iff s).1 hgate
  cases h with
  | high hhigh => exact absurd (hwave.symm.trans hhigh) Bool.false_ne_true
  | stopped _ hzero => exact absurd hzero hrate
  | low _ _ hreq hcount hn =>
    have hcount' : (s.pe.pulseCount + 1).toNat = n := by
      have hlt := limit.isLt
      rw [hcount, BitVec.toNat_ofNat, Nat.mod_eq_of_lt (by omega)]
    have hreached : (s.pe.pulseLimit ≠ 0 ∧ s.pe.pulseLimit.toNat ≤ (s.pe.pulseCount + 1).toNat) ↔
        n + 1 = limit.toNat + 1 := by
      rw [hlimit, hcount', and_iff_right hne]
      omega
    rw [tickEngine_rising s hwave hgate]
    exact .high rfl hrate (by simp only [hreached, hreq]) (by rw [hcount']) (by omega)

/-- A fall commits what the last rise left requested: the rate, or 0 after pulse `limit + 1` (R126 to R128). -/
theorem PulseTrain.fall (hlimit : s.pe.pulseLimit = limit) (hne : limit ≠ 0) (hpending : s.pe.resetPending = false)
    (hwave : s.pe.waveLevel = true) (hgate : togglesNow s = true) (h : PulseTrain limit n s.pe) :
    PulseTrain limit n (tickEngine s).pe := by
  cases h with
  | low hlow => exact absurd (hlow.symm.trans hwave) Bool.false_ne_true
  | stopped hlow => exact absurd (hlow.symm.trans hwave) Bool.false_ne_true
  | high _ hrate hreq hcount hn =>
    have hreached : (s.pe.pulseLimit ≠ 0 ∧ s.pe.pulseLimit.toNat ≤ s.pe.pulseCount.toNat) ↔ n = limit.toNat + 1 := by
      rw [hlimit, and_iff_right hne]
      omega
    have hcommit : (tickEngine s).pe.pulseCount = s.pe.pulseCount ∧
        (tickEngine s).pe.currentRateHz = if n = limit.toNat + 1 then 0 else s.pe.requestedRateHz := by
      rw [tickEngine_falling s hwave hgate _ rfl]
      simp only [hpending, hreached, Bool.false_eq_true, if_false, and_self]
    obtain ⟨hcount', hrate'⟩ := hcommit
    have hlow : (tickEngine s).pe.waveLevel = false := by rw [tickEngine_waveLevel s hgate, hwave]; rfl
    have hreq' : (tickEngine s).pe.requestedRateHz = (tickEngine s).pe.currentRateHz := by
      rw [tickEngine_falling s hwave hgate _ rfl]
    by_cases hlast : n = limit.toNat + 1
    · rw [if_pos hlast] at hrate'
      exact .stopped hlow hrate' (BitVec.eq_of_toNat_eq (by rw [hcount']; omega)) hlast
    · rw [if_neg hlast] at hrate' hreq
      refine .low hlow (by rwa [hrate', hreq]) hreq' ?_ (by omega)
      rw [hcount', ← hcount, ← BitVec.ofNat_add_ofNat, BitVec.ofNat_toNat, BitVec.setWidth_eq]
      rfl

end Toggle

theorem tickEngine_pulseLimit (s : State) : (tickEngine s).pe.pulseLimit = s.pe.pulseLimit := by
  cases hgate : togglesNow s with
  | false => rw [tickEngine, if_neg (by simp [hgate])]
  | true =>
    cases hwave : s.pe.waveLevel with
    | false => rw [tickEngine_rising s hwave hgate]
    | true => rw [tickEngine_falling s hwave hgate _ rfl]

/-- TICK never makes a counter reset pending; a fall does the one that is (R124, R128). -/
theorem tickEngine_resetPending (s : State) (h : s.pe.resetPending = false) :
    (tickEngine s).pe.resetPending = false := by
  cases hgate : togglesNow s with
  | false => rwa [tickEngine, if_neg (by simp [hgate])]
  | true =>
    cases hwave : s.pe.waveLevel with
    | false => rwa [tickEngine_rising s hwave hgate]
    | true => rw [tickEngine_falling s hwave hgate _ rfl]

/-- One step of such a run: it counts a rising edge, or it is no rising edge and counts none. -/
theorem LimitedRun.step {limit : Word} {n : Nat} {s t : State} (hne : limit ≠ 0) (h : LimitedRun limit n s)
    (hplain : PlainStep s t) (hstaged : t.sr.stagedValid = false) :
    (RisingEdge s t → LimitedRun limit (n + 1) t) ∧ (¬ RisingEdge s t → LimitedRun limit n t) := by
  obtain ⟨hlimit, hpending, hnone, htrain⟩ := h
  rcases plainStep_engine_of_not_staged hplain hnone with hpe | ⟨hgate, hpe⟩
  · refine ⟨fun ⟨hlow, hhigh⟩ => ?_, fun _ => ⟨hpe ▸ hlimit, hpe ▸ hpending, hstaged, hpe ▸ htrain⟩⟩
    rw [hpe, hlow] at hhigh
    exact absurd hhigh Bool.false_ne_true
  · have hlimit' : t.pe.pulseLimit = limit := by rw [hpe, tickEngine_pulseLimit, hlimit]
    have hpending' : t.pe.resetPending = false := by rw [hpe]; exact tickEngine_resetPending s hpending
    have hlevel : t.pe.waveLevel = !s.pe.waveLevel := by rw [hpe, tickEngine_waveLevel s hgate]
    constructor
    · intro ⟨hlow, _⟩
      exact ⟨hlimit', hpending', hstaged, hpe ▸ htrain.rise hlimit hne hlow hgate⟩
    · intro hnot
      have hhigh : s.pe.waveLevel = true := by
        by_contra hlow
        rw [Bool.not_eq_true] at hlow
        exact hnot ⟨hlow, by rw [hlevel, hlow]; rfl⟩
      exact ⟨hlimit', hpending', hstaged, hpe ▸ htrain.fall hlimit hne hpending hhigh hgate⟩

theorem undisturbedRun_limitedRun {limit : Word} {s t : State} {n : Nat} (hne : limit ≠ 0)
    (hs : LimitedRun limit 0 s) (hrun : UndisturbedRun s n t) : LimitedRun limit n t := by
  induction hrun with
  | start => exact hs
  | rise n a b _ hplain hstaged hrise ih => exact (ih.step hne hplain hstaged).1 hrise
  | other n a b _ hplain hstaged hnot ih => exact (ih.step hne hplain hstaged).2 hnot

/-- Settles O17: the run stands in one of the three places of `PulseTrain`, and only the last has rate 0. -/
theorem limitNEmitsNPlusOnePulses : Obligations.LimitNEmitsNPlusOnePulses := by
  intro s t n hlow hcount hrate hreq hne hpending hstaged hrun
  have hstart : PulseTrain s.pe.pulseLimit 0 s.pe := .low hlow hrate hreq (by rw [hcount]; rfl) (Nat.zero_le _)
  obtain ⟨-, -, -, htrain⟩ := undisturbedRun_limitedRun hne ⟨rfl, hpending, hstaged, hstart⟩ hrun
  cases htrain with
  | low _ hrun' _ _ hn => exact ⟨by omega, fun hzero => absurd hzero hrun'⟩
  | high _ hrun' _ _ hn => exact ⟨hn, fun hzero => absurd hzero hrun'⟩
  | stopped hlow' _ hcount' hn => exact ⟨hn.le, fun _ => ⟨hn, hcount', hlow'⟩⟩

end Sys2Proof.Machine

/-!
PROOFS. Who writes what (spec R20, R21, R39, R41): for each element of the state the operations that can change it, by
cases on what an operation does (`ExecEffect`).
-/

namespace Sys2Proof.Machine

/-! What DRAIN and POLL_APPLY leave, field by field. -/

@[simp] theorem drainLatch_nowUs (s : State) : (drainLatch s).nowUs = s.nowUs := by
  obtain ⟨_, _, h, -⟩ := drainLatch_frame s; rw [h]
@[simp] theorem drainLatch_pe (s : State) : (drainLatch s).pe = s.pe := by
  obtain ⟨_, _, h, -⟩ := drainLatch_frame s; rw [h]
@[simp] theorem drainLatch_bits (s : State) : (drainLatch s).il.bits = s.il.bits := by
  obtain ⟨_, _, h, hbits, -⟩ := drainLatch_frame s; rw [h, hbits]
@[simp] theorem drainLatch_changedAtUs (s : State) : (drainLatch s).il.changedAtUs = s.il.changedAtUs := by
  obtain ⟨_, _, h, -, htime⟩ := drainLatch_frame s; rw [h, htime]
@[simp] theorem drainLatch_sr (s : State) : (drainLatch s).sr = s.sr := by
  obtain ⟨_, _, h, -⟩ := drainLatch_frame s; rw [h]
@[simp] theorem drainLatch_out (s : State) : (drainLatch s).out = s.out := by
  obtain ⟨_, _, h, -⟩ := drainLatch_frame s; rw [h]
@[simp] theorem drainLatch_params (s : State) : (drainLatch s).params = s.params := by
  obtain ⟨_, _, h, -⟩ := drainLatch_frame s; rw [h]

@[simp] theorem pollStaged_nowUs (s : State) : (pollStaged s).nowUs = s.nowUs := by
  obtain ⟨_, _, h, -⟩ := pollStaged_frame s; rw [h]
@[simp] theorem pollStaged_waveLevel (s : State) : (pollStaged s).pe.waveLevel = s.pe.waveLevel := by
  obtain ⟨_, _, h, hwave, -⟩ := pollStaged_frame s; rw [h, hwave]
@[simp] theorem pollStaged_lastToggleUs (s : State) : (pollStaged s).pe.lastToggleUs = s.pe.lastToggleUs := by
  obtain ⟨_, _, h, -, hlast, -⟩ := pollStaged_frame s; rw [h, hlast]
@[simp] theorem pollStaged_syncAtUs (s : State) : (pollStaged s).pe.syncAtUs = s.pe.syncAtUs := by
  obtain ⟨_, _, h, -, -, hsync⟩ := pollStaged_frame s; rw [h, hsync]
@[simp] theorem pollStaged_il (s : State) : (pollStaged s).il = s.il := by
  obtain ⟨_, _, h, -⟩ := pollStaged_frame s; rw [h]
@[simp] theorem pollStaged_out (s : State) : (pollStaged s).out = s.out := by
  obtain ⟨_, _, h, -⟩ := pollStaged_frame s; rw [h]
@[simp] theorem pollStaged_params (s : State) : (pollStaged s).params = s.params := by
  obtain ⟨_, _, h, -⟩ := pollStaged_frame s; rw [h]
@[simp] theorem pollStaged_port (s : State) : (pollStaged s).port = s.port := by
  obtain ⟨_, _, h, -⟩ := pollStaged_frame s; rw [h]

/-- TICK drives the outputs that have a pin and no others, so it keeps which of them do (R31). -/
theorem tickEngine_out_isSome (s : State) : (tickEngine s).out.map Option.isSome = s.out.map Option.isSome := by
  cases hgate : togglesNow s with
  | false => rw [tickEngine, if_neg (by simp [hgate])]
  | true =>
    cases hwave : s.pe.waveLevel with
    | false => rw [tickEngine_rising s hwave hgate]; exact driveOutputs_isSome true s.out
    | true => rw [tickEngine_falling s hwave hgate _ rfl]; exact driveOutputs_isSome false s.out

/-! The clock (R21). -/

theorem exec_nowUs {i : Instr} {s t : State} (h : exec i s = .next t) (hreset : i ≠ .reset) (hadv : ∀ d, i ≠ .adv d) :
    t.nowUs = s.nowUs := by
  cases exec_effect i s t h with
  | port _ ht => obtain ⟨port, rfl⟩ := ht; rfl
  | stage _ ht => obtain ⟨sr, port, rfl⟩ := ht; rfl
  | service _ _ ht => obtain ⟨sr, port, env, rfl⟩ := ht; rfl
  | reset hi _ => exact absurd hi hreset
  | adv d hi _ => exact absurd hi (hadv d)
  | edge ch level _ _ ht => simp [ht]
  | tick _ _ ht => simp [ht]
  | drain _ _ ht => simp [ht]
  | poll _ _ ht => simp [ht]
  | apply cfg _ ht => simp [ht]
  | commit _ _ ht => simp [ht]

/-- Settles O3: ADV is one write of the clock, and no other effect of an operation but RESET's has one. -/
theorem advAloneAdvancesTheClock : Obligations.AdvAloneAdvancesTheClock := by
  constructor
  · intro s d
    exact ⟨advanceClock d s.begin, rfl, by simp, rfl⟩
  · intro i s t h hreset hadv
    exact exec_nowUs h hreset hadv

/-! The parameters (R39). -/

theorem exec_parameters {i : Instr} {s t : State} (h : exec i s = .next t) :
    t.params = s.params ∧ t.out.map Option.isSome = s.out.map Option.isSome := by
  cases exec_effect i s t h with
  | port _ ht => obtain ⟨port, rfl⟩ := ht; exact ⟨rfl, rfl⟩
  | stage _ ht => obtain ⟨sr, port, rfl⟩ := ht; exact ⟨rfl, rfl⟩
  | service _ _ ht => obtain ⟨sr, port, env, rfl⟩ := ht; exact ⟨rfl, rfl⟩
  | reset _ ht => rw [ht]; exact ⟨rfl, driveOutputs_isSome false s.out⟩
  | adv d _ ht => simp [ht]
  | edge ch level _ _ ht => simp [ht]
  | tick _ _ ht => rw [ht]; exact ⟨tickEngine_params s.begin, tickEngine_out_isSome s.begin⟩
  | drain _ _ ht => simp [ht]
  | poll _ _ ht => simp [ht]
  | apply cfg _ ht => simp [ht]
  | commit _ _ ht => simp [ht]

/-- Settles O60: no effect writes the parameters, and outputs are only ever driven, which keeps the pins. -/
theorem parametersNeverChange : Obligations.ParametersNeverChange :=
  fun _ _ _ h => exec_parameters h

/-! The phase (R41). -/

/-- The operations that are LOOP steps (R94, log 8). -/
abbrev IsLoopStep (i : Instr) : Prop :=
  i = .tick ∨ i = .drain ∨ (∃ items, i = .service items) ∨ i = .pollApply ∨ i = .loopStep

/-- Every operation is a LOOP step that advances the phase, or RESET, or neither and leaves it. -/
theorem exec_phase {i : Instr} {s t : State} (h : exec i s = .next t) :
    (IsLoopStep i ∧ i ≠ .reset ∧ t.phase = nextPhase s.phase) ∨ (i = .reset ∧ t.phase = .tick) ∨
      (¬ IsLoopStep i ∧ i ≠ .reset ∧ t.phase = s.phase) := by
  cases exec_effect i s t h with
  | port hi ht =>
    obtain ⟨port, rfl⟩ := ht
    obtain ⟨hreset, hloop⟩ := not_or.1 hi
    exact .inr (.inr ⟨hloop, hreset, rfl⟩)
  | stage hi ht =>
    obtain ⟨sr, port, rfl⟩ := ht
    rcases hi with ⟨raw, rfl⟩ | ⟨cfg, rfl⟩ | ⟨l, c, p, rfl⟩ <;> simp
  | service hi hphase ht =>
    obtain ⟨sr, port, env, rfl⟩ := ht
    rcases hi with ⟨items, rfl⟩ | rfl <;> simp [IsLoopStep, hphase, nextPhase]
  | reset hi ht => exact .inr (.inl ⟨hi, by rw [ht]; rfl⟩)
  | adv d hi ht => subst hi ht; simp
  | edge ch level hi _ ht => subst hi ht; simp
  | tick hi _ ht => subst ht; rcases hi with rfl | rfl <;> simp [IsLoopStep]
  | drain hi _ ht => subst ht; rcases hi with rfl | rfl <;> simp [IsLoopStep]
  | poll hi _ ht => subst ht; rcases hi with rfl | rfl <;> simp [IsLoopStep]
  | apply cfg hi ht => subst hi ht; simp
  | commit hi _ ht => subst hi ht; simp

/-- Settles O6: the three cases of `exec_phase`. -/
theorem phaseAdvancesByLoopStepsAndNothingElse : Obligations.PhaseAdvancesByLoopStepsAndNothingElse := by
  intro i s t h
  refine ⟨fun hloop => ?loop, fun hreset => ?reset, fun hother => ?other⟩
  case loop =>
    rcases exec_phase h with ⟨-, -, hphase⟩ | ⟨rfl, -⟩ | ⟨hnot, -⟩
    · rw [hphase, phaseCode_nextPhase]
    · simp at hloop
    · exact absurd hloop hnot
  case reset =>
    rcases exec_phase h with ⟨-, hne, -⟩ | ⟨-, hphase⟩ | ⟨-, hne, -⟩
    · exact absurd hreset hne
    · rw [hphase]; rfl
    · exact absurd hreset hne
  case other =>
    obtain ⟨htick, hdrain, hservice, hpoll, hstep, hreset⟩ := hother
    rcases exec_phase h with ⟨hloop, -⟩ | ⟨hi, -⟩ | ⟨-, -, hphase⟩
    · exact absurd hloop (by simp [IsLoopStep, htick, hdrain, hservice, hpoll, hstep])
    · exact absurd hi hreset
    · exact hphase

/-! The engine and the outputs (R20, S1 to S10 and S18). -/

/-- Outside RESET and TICK no operation writes the level, the sampled times or an output. -/
theorem exec_wave {i : Instr} {s t : State} (h : exec i s = .next t) (hreset : i ≠ .reset) (htick : i ≠ .tick)
    (hloop : i ≠ .loopStep) :
    t.pe.waveLevel = s.pe.waveLevel ∧ t.pe.lastToggleUs = s.pe.lastToggleUs ∧ t.pe.syncAtUs = s.pe.syncAtUs ∧
      t.out = s.out := by
  cases exec_effect i s t h with
  | port _ ht => obtain ⟨port, rfl⟩ := ht; exact ⟨rfl, rfl, rfl, rfl⟩
  | stage _ ht => obtain ⟨sr, port, rfl⟩ := ht; exact ⟨rfl, rfl, rfl, rfl⟩
  | service _ _ ht => obtain ⟨sr, port, env, rfl⟩ := ht; exact ⟨rfl, rfl, rfl, rfl⟩
  | reset hi _ => exact absurd hi hreset
  | adv d _ ht => simp [ht]
  | edge ch level _ _ ht => simp [ht]
  | tick hi _ _ => exact absurd hi (not_or.2 ⟨htick, hloop⟩)
  | drain _ _ ht => simp [ht]
  | poll _ _ ht => simp [ht]
  | apply cfg _ ht => simp [ht]
  | commit _ _ ht => simp [ht, boundaryCommit_eq]

/-- Outside RESET, TICK, POLL_APPLY, APPLY and the boundary commit no operation writes the engine. -/
theorem exec_pe {i : Instr} {s t : State} (h : exec i s = .next t) (hreset : i ≠ .reset) (htick : i ≠ .tick)
    (hloop : i ≠ .loopStep) (hpoll : i ≠ .pollApply) (happly : ∀ cfg, i ≠ .apply cfg) (hcommit : i ≠ .boundaryCommit) :
    t.pe = s.pe := by
  cases exec_effect i s t h with
  | port _ ht => obtain ⟨port, rfl⟩ := ht; rfl
  | stage _ ht => obtain ⟨sr, port, rfl⟩ := ht; rfl
  | service _ _ ht => obtain ⟨sr, port, env, rfl⟩ := ht; rfl
  | reset hi _ => exact absurd hi hreset
  | adv d _ ht => simp [ht]
  | edge ch level _ _ ht => simp [ht]
  | tick hi _ _ => exact absurd hi (not_or.2 ⟨htick, hloop⟩)
  | drain _ _ ht => simp [ht]
  | poll hi _ _ => exact absurd hi (not_or.2 ⟨hpoll, hloop⟩)
  | apply cfg hi _ => exact absurd hi (happly cfg)
  | commit hi _ _ => exact absurd hi hcommit

/-- Settles O13: the wave's registers by `exec_wave`, the whole engine by `exec_pe`. -/
theorem engineWrittenOnlyByItsWriters : Obligations.EngineWrittenOnlyByItsWriters := by
  intro i s t h
  constructor
  · rintro ⟨hreset, htick, hloop⟩
    exact exec_wave h hreset htick hloop
  · rintro ⟨hreset, htick, hloop, hpoll, happly, hcommit⟩
    exact exec_pe h hreset htick hloop hpoll happly hcommit

/-! The latch and the staging register (R20, S11 to S16). -/

theorem exec_latchPair {i : Instr} {s t : State} (h : exec i s = .next t) (hreset : i ≠ .reset)
    (hedge : ∀ ch level, i ≠ .edge ch level) :
    t.il.bits = s.il.bits ∧ t.il.changedAtUs = s.il.changedAtUs := by
  cases exec_effect i s t h with
  | port _ ht => obtain ⟨port, rfl⟩ := ht; exact ⟨rfl, rfl⟩
  | stage _ ht => obtain ⟨sr, port, rfl⟩ := ht; exact ⟨rfl, rfl⟩
  | service _ _ ht => obtain ⟨sr, port, env, rfl⟩ := ht; exact ⟨rfl, rfl⟩
  | reset hi _ => exact absurd hi hreset
  | adv d _ ht => simp [ht]
  | edge ch level hi _ _ => exact absurd hi (hedge ch level)
  | tick _ _ ht => simp [ht]
  | drain _ _ ht => simp [ht]
  | poll _ _ ht => simp [ht]
  | apply cfg _ ht => simp [ht]
  | commit _ _ ht => simp [ht]

theorem exec_lastObservedUs {i : Instr} {s t : State} (h : exec i s = .next t) (hreset : i ≠ .reset)
    (hdrain : ¬ (s.phase = .drain ∧ (i = .drain ∨ i = .loopStep))) :
    t.il.lastObservedUs = s.il.lastObservedUs := by
  cases exec_effect i s t h with
  | port _ ht => obtain ⟨port, rfl⟩ := ht; rfl
  | stage _ ht => obtain ⟨sr, port, rfl⟩ := ht; rfl
  | service _ _ ht => obtain ⟨sr, port, env, rfl⟩ := ht; rfl
  | reset hi _ => exact absurd hi hreset
  | adv d _ ht => simp [ht]
  | edge ch level _ _ ht => simp [ht]
  | tick _ _ ht => simp [ht]
  | drain hi hphase _ => exact absurd ⟨hphase, hi⟩ hdrain
  | poll _ _ ht => simp [ht]
  | apply cfg _ ht => simp [ht]
  | commit _ _ ht => simp [ht]

/-- Outside RESET, the loop's steps and the handling of a SETUP no operation writes the staging register. -/
theorem exec_sr {i : Instr} {s t : State} (h : exec i s = .next t) (hreset : i ≠ .reset) (hloop : i ≠ .loopStep)
    (hpoll : i ≠ .pollApply) (hservice : ∀ items, i ≠ .service items) (hhandle : ∀ raw, i ≠ .handle raw)
    (hstage : ∀ cfg, i ≠ .stage cfg) (hsetup : ∀ l c p, i ≠ .rxSetup l c p) : t.sr = s.sr := by
  cases exec_effect i s t h with
  | port _ ht => obtain ⟨port, rfl⟩ := ht; rfl
  | stage hi _ =>
    rcases hi with ⟨raw, hi⟩ | ⟨cfg, hi⟩ | ⟨l, c, p, hi⟩
    · exact absurd hi (hhandle raw)
    · exact absurd hi (hstage cfg)
    · exact absurd hi (hsetup l c p)
  | service hi _ _ =>
    rcases hi with ⟨items, hi⟩ | hi
    · exact absurd hi (hservice items)
    · exact absurd hi hloop
  | reset hi _ => exact absurd hi hreset
  | adv d _ ht => simp [ht]
  | edge ch level _ _ ht => simp [ht]
  | tick _ _ ht => simp [ht]
  | drain _ _ ht => simp [ht]
  | poll hi _ _ => exact absurd hi (not_or.2 ⟨hpoll, hloop⟩)
  | apply cfg _ ht => simp [ht]
  | commit _ _ ht => simp [ht]

/-- Settles O23: the latch pair, the last observed time and the staging register, each by its lemma above. -/
theorem latchAndStagingWrittenOnlyByTheirWriters : Obligations.LatchAndStagingWrittenOnlyByTheirWriters := by
  intro i s t h
  refine ⟨?pair, ?observed, ?staging⟩
  case pair =>
    rintro ⟨hreset, hedge⟩
    exact exec_latchPair h hreset hedge
  case observed =>
    rintro ⟨hreset, hdrain, hloop⟩
    exact exec_lastObservedUs h hreset fun hwriter => not_or.2 ⟨hdrain, hloop⟩ hwriter.2
  case staging =>
    rintro ⟨hreset, hloop, hpoll, hservice, hhandle, hstage, hsetup⟩
    exact exec_sr h hreset hloop hpoll hservice hhandle hstage hsetup

end Sys2Proof.Machine

/-!
PROOFS. Notifications (spec R160 to R165): the pair an EDGE leaves stays until the next edge or RESET, and DRAIN sends it
once.
-/

namespace Sys2Proof.Machine

/-! Steps that are no edge. -/

theorem turnInstr_ne_reset {u : Turn} (h : u ≠ .rst) : turnInstr u ≠ .reset := by
  cases u with
  | rst => exact absurd rfl h
  | clkAdv d => simp [turnInstr]
  | edge ch level => simp [turnInstr]
  | loop offered => simp [turnInstr]

theorem turnInstr_ne_edge {u : Turn} (h : isEdgeTurn u = false) (ch : Nat) (level : Bool) :
    turnInstr u ≠ .edge ch level := by
  cases u with
  | rst => simp [turnInstr]
  | clkAdv d => simp [turnInstr]
  | edge ch level => simp [isEdgeTurn] at h
  | loop offered => simp [turnInstr]

theorem step_params {s t : State} (h : step s = .next t) : t.params = s.params := (exec_parameters h).1

/-- A run without RESET or edge keeps the latch pair and the parameters (R164). -/
theorem edgeFreeRun_latchPair {s t : State} (h : Relation.ReflTransGen EdgeFreeStep s t) :
    t.il.bits = s.il.bits ∧ t.il.changedAtUs = s.il.changedAtUs ∧ t.params = s.params := by
  induction h with
  | refl => exact ⟨rfl, rfl, rfl⟩
  | tail _ hstep ih =>
    obtain ⟨⟨hnext, hturn⟩, hedge⟩ := hstep
    obtain ⟨hbits, htime, hparams⟩ := ih
    obtain ⟨hbits', htime'⟩ := exec_latchPair hnext (turnInstr_ne_reset hturn) (turnInstr_ne_edge hedge)
    exact ⟨hbits'.trans hbits, htime'.trans htime, (step_params hnext).trans hparams⟩

theorem step_edge {s t : State} {ch : Nat} {level : Bool} (hturn : nextTurn s = .edge ch level)
    (h : step s = .next t) : channelPresent s ch = true ∧ t = edgeLatch ch level (takeTurn s).begin := by
  rw [step, hturn] at h
  exact (edge_eq_next_iff ch level (takeTurn s) t).1 h

theorem step_loop {s t : State} {offered : List Item} (hturn : nextTurn s = .loop offered) (h : step s = .next t) :
    t = advancePhase (loopBody (takeTurn s).begin) := by
  rw [step, hturn] at h
  exact (next_inj.1 h).symm

/-! The two cases of DRAIN (R163, R165). -/

theorem drainLatch_of_seen {s : State} (h : s.il.changedAtUs = s.il.lastObservedUs) : drainLatch s = s := by
  rw [drainLatch_eq, if_pos h]

theorem drainLatch_of_new {s : State} (h : s.il.changedAtUs ≠ s.il.lastObservedUs) : drainLatch s = { s with
    il := { s.il with lastObservedUs := s.il.changedAtUs }
    port := { s.port with
      tx := s.port.tx ++ [inputsFrame s.params.typeCode s.il.changedAtUs s.pe.pulseCount s.il.bits] } } := by
  rw [drainLatch_eq, if_neg h]

/-- Settles O24: the pair that DRAIN reads is the one the edge left, and the clock was read together with the bit. -/
theorem notificationCarriesTheLastEdge : Obligations.NotificationCarriesTheLastEdge := by
  intro s0 s1 s2 s3 ch level offered hturn0 hstep0 hrun hphase hturn2 hstep2
  obtain ⟨hpresent, hs1⟩ := step_edge hturn0 hstep0
  obtain ⟨hch, -⟩ := (channelPresent_iff s0 ch).1 hpresent
  obtain ⟨hbits, htime, hparams⟩ := edgeFreeRun_latchPair hrun
  have hbit : s1.il.bits.getLsbD ch = level := by
    rw [hs1, edgeLatch_il, writeInputBit_getLsbD _ ch ch level hch hch, if_pos rfl]
  have hchanged : s2.il.changedAtUs = s0.nowUs := by rw [htime, hs1]; rfl
  have hcode : s2.params.typeCode = s0.params.typeCode := by rw [hparams, step_params hstep0]
  have hs3 : s3 = advancePhase (drainLatch (takeTurn s2).begin) := by
    rw [step_loop hturn2 hstep2, loopBody, begin_phase, takeTurn_phase, hphase]
  refine ⟨hbit, ?_⟩
  rw [hs3, ← hbits, ← hchanged, ← hcode]
  by_cases hseen : s2.il.changedAtUs = s2.il.lastObservedUs
  · rw [if_pos hseen, drainLatch_of_seen (s := (takeTurn s2).begin) hseen]
    rfl
  · rw [if_neg hseen, drainLatch_of_new (s := (takeTurn s2).begin) hseen]
    rfl

/-! DRAIN by its name (X3). -/

/-- A named LOOP operation in its own phase (R214). -/
theorem loopOperation_of_phase {p : Phase} {op : State → State} {s : State} (h : s.phase = p) :
    loopOperation p op s = .next (advancePhase (op s.begin)) :=
  (loopOperation_eq_next_iff p op s _).2 ⟨h, rfl⟩

/-- DRAIN in its phase: at most one notification, then the SERVICE phase. -/
theorem exec_drain {s : State} (h : s.phase = .drain) :
    exec .drain s = .next { drainLatch s.begin with phase := .service } := by
  refine (loopOperation_of_phase h).trans ?_
  rw [advancePhase, drainLatch_phase, begin_phase, h]
  rfl

/-- The twelve bytes of an INPUTS frame (R81, R86). -/
theorem inputsFrame_bytes (tc : TypeCodes) (t c : Word) (b : Byte) :
    inputsFrame tc t c b = tc.inputs :: 9 :: (encodeInputs t c b).sum :: encodeInputs t c b := by
  simp [inputsFrame, encodeFrame, checksumOf_eq_sum]

/-- Settles O22: the two cases of DRAIN, with the bytes of the frame. -/
theorem drainSendsOneNotificationOrNone : Obligations.DrainSendsOneNotificationOrNone := by
  intro s hphase
  refine ⟨fun hseen => ?none, fun hnew => ⟨_, rfl, ?one⟩⟩
  case none =>
    rw [exec_drain hphase, drainLatch_of_seen (s := s.begin) hseen]
    rfl
  case one =>
    rw [exec_drain hphase, drainLatch_of_new (s := s.begin) hnew, inputsFrame_bytes, encodeInputs_bytes]
    rfl

end Sys2Proof.Machine

/-!
PROOFS. The codec's laws (spec R181 to R186): checksum, DECODE against ENCODE, and SETUP_ENCODE against SETUP_DECODE.
-/

namespace Sys2Proof.Machine

/-! The codec operations (R181, R182, R184). -/

theorem exec_decode (raw : Bytes) (s : State) :
    exec (.decode raw) s = .next (withResult (.decoded (decodeFrame raw)) s.begin) := rfl

theorem exec_encode_of_fits {payload : Bytes} (type : Byte) (s : State) (h : payload.length ≤ 255) :
    exec (.encode type payload) s = .next (withResult (.bytes (encodeFrame type payload)) s.begin) :=
  if_pos h

theorem exec_encode_of_long {payload : Bytes} (type : Byte) (s : State) (h : 255 < payload.length) :
    exec (.encode type payload) s = .refused .payloadTooLong :=
  if_neg (Nat.not_le.2 h)

theorem exec_setupEncode (cfg : SetupCfg) (s : State) :
    exec (.setupEncode cfg) s = .next (withResult (.bytes (encodeSetup cfg)) s.begin) := rfl

/-! The checksum (R186). -/

theorem checksumOf_perm {p q : Bytes} (h : p.Perm q) : checksumOf p = checksumOf q := by
  rw [checksumOf_eq_sum, checksumOf_eq_sum, h.sum_eq]

/-- A byte's contribution to the sum can be cancelled, so the byte can be told from it. -/
theorem checksumOf_replace_inj {p q : Bytes} {b c : Byte} (h : checksumOf (p ++ b :: q) = checksumOf (p ++ c :: q)) :
    b = c := by
  rw [checksumOf_append, checksumOf_append, checksumOf_cons, checksumOf_cons] at h
  exact add_right_cancel (add_left_cancel h)

/-- Settles O27: addition of bytes commutes and cancels. -/
theorem checksumIgnoresOrderAndSeesAnyByteChange : Obligations.ChecksumIgnoresOrderAndSeesAnyByteChange := by
  intro s
  constructor
  · intro p q hperm
    rw [exec_checksum, exec_checksum, checksumOf_perm hperm]
  · intro p q b c hne heq
    rw [exec_checksum, exec_checksum, next_inj] at heq
    have hresult : Result.byte (checksumOf (p ++ b :: q)) = .byte (checksumOf (p ++ c :: q)) :=
      congrArg (fun t : State => t.port.result) heq
    exact hne (checksumOf_replace_inj (Result.byte.inj hresult))

/-! DECODE and ENCODE (R181, R182). -/

/-- Settles O28: below three bytes DECODE is SHORT, else the record of the header. -/
theorem decodeChecksLengthAndChecksumIndependently : Obligations.DecodeChecksLengthAndChecksumIndependently := by
  intro s
  constructor
  · intro raw hshort
    rw [exec_decode, decodeFrame_short raw hshort, withResult_begin, shortFlags_eq]
  · intro type length cks payload
    exact ⟨decodeRecord type length cks payload, rfl, rfl, rfl, rfl, rfl, rfl, checksumOf_eq_sum payload,
      decodeRecord_err_sum type length cks payload⟩

/-- Settles O29: the frame ENCODE gives is `encodeFrame`, which decodes without a flag. -/
theorem encodeFillsAFrameThatDecodes : Obligations.EncodeFillsAFrameThatDecodes := by
  intro s type payload
  constructor
  · intro hfits
    obtain ⟨r, hdecode, htype, hpayload, herr⟩ := decodeFrame_encodeFrame type payload hfits
    refine ⟨encodeFrame type payload, r, ?_, ?_, hdecode, htype, hpayload, herr⟩
    · rw [exec_encode_of_fits type s hfits, withResult_begin]
    · rw [encodeFrame, checksumOf_eq_sum]
  · intro hlong
    exact exec_encode_of_long type s hlong

/-! Fields and their bytes (R92). -/

/-- Four bytes read as a u32 are written back as they were. -/
theorem leBytes_ofNat_leValue (b0 b1 b2 b3 : Byte) :
    leBytes 4 (BitVec.ofNat 32 (leValue [b0, b1, b2, b3])).toNat = [b0, b1, b2, b3] := by
  have hfits : leValue [b0, b1, b2, b3] < 2 ^ 32 := by
    rw [leValue_four]
    omega
  rw [BitVec.toNat_ofNat, Nat.mod_eq_of_lt hfits]
  exact leBytes_leValue [b0, b1, b2, b3]

/-- A u32 written as four bytes is read back as it was. -/
theorem ofNat_leValue_leBytes (v : Word) : BitVec.ofNat 32 (leValue (leBytes 4 v.toNat)) = v := by
  rw [leValue_leBytes]
  exact BitVec.eq_of_toNat_eq (by rw [BitVec.toNat_ofNat]; omega)

theorem eq_ten_bytes {p : Bytes} (h : p.length = 10) : ∃ d0 d1 d2 d3 l0 l1 l2 l3 r f : Byte,
    p = [d0, d1, d2, d3, l0, l1, l2, l3, r, f] := by
  match p, h with
  | [d0, d1, d2, d3, l0, l1, l2, l3, r, f], _ => exact ⟨d0, d1, d2, d3, l0, l1, l2, l3, r, f, rfl⟩

theorem encodeSetup_decodeSetup {p : Bytes} {cfg : SetupCfg} (h : decodeSetup p = some cfg) : encodeSetup cfg = p := by
  have hlen : p.length = 10 := by
    by_contra hne
    rw [decodeSetup_none p hne] at h
    cases h
  obtain ⟨d0, d1, d2, d3, l0, l1, l2, l3, r, f, rfl⟩ := eq_ten_bytes hlen
  rw [decodeSetup_ten, Option.some.injEq] at h
  subst h
  rw [encodeSetup_eq, leBytes_ofNat_leValue, leBytes_ofNat_leValue, leBytes_one, leBytes_one]
  rfl

theorem decodeSetup_encodeSetup (cfg : SetupCfg) : decodeSetup (encodeSetup cfg) = some cfg := by
  rw [encodeSetup_eq, leBytes_four, leBytes_four, leBytes_one, leBytes_one]
  simp only [List.cons_append, List.nil_append]
  rw [decodeSetup_ten, ← leBytes_four, ← leBytes_four, ofNat_leValue_leBytes, ofNat_leValue_leBytes]

/-- Settles O31: the two codecs are inverse to each other on ten bytes. -/
theorem setupRoundTrips : Obligations.SetupRoundTrips := by
  intro s
  constructor
  · intro p hlen
    obtain ⟨cfg, hcfg⟩ := decodeSetup_isSome p hlen
    refine ⟨cfg, ?_, ?_⟩
    · rw [exec_setupDecode_of_some p cfg s hcfg, withResult_begin]
    · rw [exec_setupEncode, withResult_begin, encodeSetup_decodeSetup hcfg]
  · intro cfg
    refine ⟨encodeSetup cfg, encodeSetup_length cfg, ?_, ?_⟩
    · rw [exec_setupEncode, withResult_begin]
    · rw [exec_setupDecode_of_some _ cfg s (decodeSetup_encodeSetup cfg), withResult_begin]

end Sys2Proof.Machine

/-!
PROOFS. Encoding (spec R81 to R93): decoding and encoding are inverse to each other on each port.
-/

namespace Sys2Proof

open Machine

/-! The INPUTS payload (R86). -/

theorem decodeInputs_nine (t0 t1 t2 t3 c0 c1 c2 c3 b : Byte) :
    decodeInputs [t0, t1, t2, t3, c0, c1, c2, c3, b] =
      some (BitVec.ofNat 32 (leValue [t0, t1, t2, t3]), BitVec.ofNat 32 (leValue [c0, c1, c2, c3]), b) := by
  simp [decodeInputs, memRead, Config.inputsLen, leValue]

theorem eq_nine_bytes {p : Bytes} (h : p.length = 9) : ∃ t0 t1 t2 t3 c0 c1 c2 c3 b : Byte,
    p = [t0, t1, t2, t3, c0, c1, c2, c3, b] := by
  match p, h with
  | [t0, t1, t2, t3, c0, c1, c2, c3, b], _ => exact ⟨t0, t1, t2, t3, c0, c1, c2, c3, b, rfl⟩

theorem decodeInputs_length {p : Bytes} {f : Word × Word × Byte} (h : decodeInputs p = some f) : p.length = 9 := by
  by_contra hne
  simp [decodeInputs, Config.inputsLen, hne] at h

theorem encodeInputs_decodeInputs {p : Bytes} {t c : Word} {b : Byte} (h : decodeInputs p = some (t, c, b)) :
    encodeInputs t c b = p := by
  obtain ⟨t0, t1, t2, t3, c0, c1, c2, c3, b', rfl⟩ := eq_nine_bytes (decodeInputs_length h)
  rw [decodeInputs_nine, Option.some.injEq, Prod.mk.injEq, Prod.mk.injEq] at h
  obtain ⟨rfl, rfl, rfl⟩ := h
  rw [encodeInputs_eq, leBytes_ofNat_leValue, leBytes_ofNat_leValue, leBytes_one]
  rfl

theorem decodeInputs_encodeInputs (t c : Word) (b : Byte) : decodeInputs (encodeInputs t c b) = some (t, c, b) := by
  rw [encodeInputs_bytes, decodeInputs_nine, ← leBytes_four, ← leBytes_four, ofNat_leValue_leBytes,
    ofNat_leValue_leBytes]

/-! Port `rx` (R93). -/

/-- The inbound operation of a frame whose type byte selects `ft` (R83, R93). -/
def rxOperation (ft : FrameType) (type length cks : Byte) (payload : Bytes) : Instr :=
  match ft with
  | .echo => .rxEcho length cks payload
  | .setup => .rxSetup length cks payload
  | .inputs => .rxInputs length cks payload
  | .ack => .rxAck length cks payload
  | .error => .rxError length cks payload
  | .txt => .rxTxt length cks payload
  | .other => .rxUnknown type length cks payload

theorem decodeRx_cons (tc : TypeCodes) (type length cks : Byte) (payload : Bytes) :
    decodeRx tc (type :: length :: cks :: payload) = rxOperation (frameType tc type) type length cks payload := rfl

theorem decodeRx_short (tc : TypeCodes) {raw : Bytes} (h : raw.length < 3) : decodeRx tc raw = .rxShort raw := by
  match raw, h with
  | [], _ => rfl
  | [_], _ => rfl
  | [_, _], _ => rfl

/-- A sequence is shorter than a header or begins with one (R181). -/
theorem short_or_header (raw : Bytes) :
    raw.length < 3 ∨ ∃ type length cks payload, raw = type :: length :: cks :: payload := by
  match raw with
  | [] => exact .inl (by simp)
  | [_] => exact .inl (by simp)
  | [_, _] => exact .inl (by simp)
  | type :: length :: cks :: payload => exact .inr ⟨type, length, cks, payload, rfl⟩

/-- Every sequence is a well-formed inbound operation, and its bytes are those it was read from. -/
theorem encode_decodeRx (tc : TypeCodes) (raw : Bytes) :
    (decodeRx tc raw).wellFormed tc = true ∧ encode tc (decodeRx tc raw) = some raw := by
  rcases short_or_header raw with hshort | ⟨type, length, cks, payload, rfl⟩
  · rw [decodeRx_short tc hshort]
    exact ⟨decide_eq_true hshort, rfl⟩
  · rw [decodeRx_cons]
    rcases frameType_cases tc type with ⟨h, rfl⟩ | ⟨h, rfl⟩ | ⟨h, rfl⟩ | ⟨h, rfl⟩ | ⟨h, rfl⟩ | ⟨h, rfl⟩ | ⟨h, hmem⟩ <;>
      rw [h]
    case inr.inr.inr.inr.inr.inr => exact ⟨decide_eq_true hmem, rfl⟩
    all_goals exact ⟨rfl, rfl⟩

/-! Port `tx` (R83, R86 to R90). -/

/-- A frame without a flag is the one ENCODE makes of its type and payload (R182). -/
theorem encodeFrame_of_isEmpty {type length cks : Byte} {payload : Bytes}
    (h : (decodeRecord type length cks payload).err.isEmpty = true) :
    payload.length ≤ 255 ∧ type :: length :: cks :: payload = encodeFrame type payload := by
  obtain ⟨hlen, rfl⟩ := (decodeRecord_isEmpty_iff ..).1 h
  have hlength : BitVec.ofNat 8 payload.length = length := by
    rw [← hlen, BitVec.ofNat_toNat, BitVec.setWidth_eq]
  have hfits : payload.length ≤ 255 := hlen ▸ Nat.le_of_lt_succ length.isLt
  exact ⟨hfits, by rw [encodeFrame, hlength]⟩

/-- The outbound operation of a well-formed frame whose type byte selects `ft`, if it is one the block emits (R83). -/
def txOperation (ft : FrameType) (raw payload : Bytes) : Except DecodeReject Instr :=
  match ft with
  | .echo => .ok (.txEcho raw)
  | .setup => .error .setupNeverEmitted
  | .inputs =>
    match decodeInputs payload with
    | some (t, c, b) => .ok (.txInputs t c b)
    | none => .error .inputsLength
  | .ack => if payload = [] then .ok .txAck else .error .ackNotEmpty
  | .error => .ok (.txError payload)
  | .txt => .ok (.txTxt payload)
  | .other => .error .unknownType

theorem decodeTx_cons (tc : TypeCodes) (type length cks : Byte) (payload : Bytes) :
    decodeTx tc (type :: length :: cks :: payload) =
      if (decodeRecord type length cks payload).err.isEmpty then
        txOperation (frameType tc type) (type :: length :: cks :: payload) payload
      else .error .malformed := rfl

/-- The frame ENCODE makes is read on port `tx` by its type. -/
theorem decodeTx_encodeFrame (tc : TypeCodes) (type : Byte) {payload : Bytes} (h : payload.length ≤ 255) :
    decodeTx tc (encodeFrame type payload) =
      txOperation (frameType tc type) (encodeFrame type payload) payload := by
  have hlen : (BitVec.ofNat 8 payload.length).toNat = payload.length := by
    rw [BitVec.toNat_ofNat, Nat.mod_eq_of_lt (by omega)]
  rw [encodeFrame, decodeTx_cons, if_pos ((decodeRecord_isEmpty_iff ..).2 ⟨hlen, rfl⟩)]

/-- What port `tx` accepts is a frame ENCODE makes. -/
theorem decodeTx_ok_encodeFrame {tc : TypeCodes} {raw : Bytes} {i : Instr} (h : decodeTx tc raw = .ok i) :
    ∃ type payload, payload.length ≤ 255 ∧ raw = encodeFrame type payload := by
  rcases short_or_header raw with hshort | ⟨type, length, cks, payload, rfl⟩
  · rw [decodeTx, decodeFrame_short raw hshort] at h
    cases h
  · rw [decodeTx_cons] at h
    split at h
    case isTrue hclean => exact ⟨type, payload, encodeFrame_of_isEmpty hclean⟩
    case isFalse => cases h

/-- An ECHO frame is a frame of ECHO's code that ENCODE makes (R88). -/
theorem isEchoFrame_iff (tc : TypeCodes) (raw : Bytes) :
    isEchoFrame tc raw = true ↔ ∃ payload, payload.length ≤ 255 ∧ raw = encodeFrame tc.echo payload := by
  constructor
  · intro h
    rcases short_or_header raw with hshort | ⟨type, length, cks, payload, rfl⟩
    · rw [isEchoFrame, decodeFrame_short raw hshort] at h
      cases h
    · rw [isEchoFrame, decodeFrame_cons] at h
      obtain ⟨htype, hclean⟩ := Bool.and_eq_true_iff.1 h
      obtain rfl : type = tc.echo := eq_of_beq htype
      exact ⟨payload, encodeFrame_of_isEmpty hclean⟩
  · rintro ⟨payload, hfits, rfl⟩
    obtain ⟨r, hdecode, htype, -, herr⟩ := decodeFrame_encodeFrame tc.echo payload hfits
    rw [isEchoFrame, hdecode]
    simp [htype, herr]

/-- What port `tx` accepts is a well-formed operation, and its bytes are those it was read from. -/
theorem encode_decodeTx {tc : TypeCodes} {raw : Bytes} {i : Instr} (h : decodeTx tc raw = .ok i) :
    i.wellFormed tc = true ∧ encode tc i = some raw := by
  obtain ⟨type, payload, hfits, rfl⟩ := decodeTx_ok_encodeFrame h
  rw [decodeTx_encodeFrame tc type hfits] at h
  rcases frameType_cases tc type with ⟨ht, rfl⟩ | ⟨ht, rfl⟩ | ⟨ht, rfl⟩ | ⟨ht, rfl⟩ | ⟨ht, rfl⟩ | ⟨ht, rfl⟩ | ⟨ht, -⟩ <;>
    rw [ht] at h
  case inl => -- ECHO
    cases h
    exact ⟨(isEchoFrame_iff ..).2 ⟨payload, hfits, rfl⟩, rfl⟩
  case inr.inl => cases h -- SETUP
  case inr.inr.inl => -- INPUTS
    cases hfields : decodeInputs payload with
    | none => simp [txOperation, hfields] at h
    | some fields =>
      obtain ⟨t, c, b⟩ := fields
      simp only [txOperation, hfields] at h
      cases h
      exact ⟨rfl, by rw [encode, inputsFrame, encodeInputs_decodeInputs hfields]⟩
  case inr.inr.inr.inl => -- ACK
    by_cases hempty : payload = []
    · subst hempty
      cases h
      exact ⟨rfl, rfl⟩
    · simp [txOperation, hempty] at h
  case inr.inr.inr.inr.inl => -- ERROR
    cases h
    exact ⟨decide_eq_true hfits, rfl⟩
  case inr.inr.inr.inr.inr.inl => -- TXT
    cases h
    exact ⟨decide_eq_true hfits, rfl⟩
  case inr.inr.inr.inr.inr.inr => cases h -- any other type

/-- Settles O54: port `rx` by `encode_decodeRx`, port `tx` by `encode_decodeTx`. -/
theorem encodingADecodedFrameGivesItBack : Obligations.EncodingADecodedFrameGivesItBack := by
  intro tc raw
  exact ⟨encode_decodeRx tc raw, fun i _ h => encode_decodeTx h⟩

/-! The other way round, one operation at a time. -/

theorem decodeRx_encode {tc : TypeCodes} (hinj : tc.Injective) {i : Instr} (hwf : i.wellFormed tc = true)
    (hport : i.direction = some .rx) {bs : Bytes} (h : encode tc i = some bs) : decodeRx tc bs = i := by
  obtain ⟨hecho, hsetup, hinputs, hack, herror, htxt⟩ := frameType_of_injective tc hinj
  cases i with
  | rxEcho l c p => cases h; rw [decodeRx_cons, hecho]; rfl
  | rxSetup l c p => cases h; rw [decodeRx_cons, hsetup]; rfl
  | rxInputs l c p => cases h; rw [decodeRx_cons, hinputs]; rfl
  | rxAck l c p => cases h; rw [decodeRx_cons, hack]; rfl
  | rxError l c p => cases h; rw [decodeRx_cons, herror]; rfl
  | rxTxt l c p => cases h; rw [decodeRx_cons, htxt]; rfl
  | rxUnknown type l c p =>
    cases h
    rw [decodeRx_cons, (frameType_other_iff tc type).2 (of_decide_eq_true hwf)]
    rfl
  | rxShort raw =>
    cases h
    exact decodeRx_short tc (of_decide_eq_true hwf)
  | _ => cases hport

theorem decodeTx_encode {tc : TypeCodes} (hinj : tc.Injective) {i : Instr} (hwf : i.wellFormed tc = true)
    (hport : i.direction = some .tx) {bs : Bytes} (h : encode tc i = some bs) : decodeTx tc bs = .ok i := by
  obtain ⟨hecho, -, hinputs, hack, herror, htxt⟩ := frameType_of_injective tc hinj
  cases i with
  | txEcho raw =>
    cases h
    obtain ⟨payload, hfits, rfl⟩ := (isEchoFrame_iff tc bs).1 hwf
    rw [decodeTx_encodeFrame tc _ hfits, hecho, txOperation]
  | txAck =>
    cases h
    rw [ackFrame, decodeTx_encodeFrame tc _ (payload := []) (Nat.zero_le 255), hack]
    rfl
  | txInputs t c b =>
    cases h
    have hfits : (encodeInputs t c b).length ≤ 255 := by simp
    rw [inputsFrame, decodeTx_encodeFrame tc _ hfits, hinputs, txOperation,
      decodeInputs_encodeInputs]
  | txError text =>
    cases h
    rw [errorFrame, decodeTx_encodeFrame tc _ (of_decide_eq_true hwf), herror, txOperation]
  | txTxt text =>
    cases h
    rw [txtFrame, decodeTx_encodeFrame tc _ (of_decide_eq_true hwf), htxt, txOperation]
  | _ => cases hport

/-- Settles O53: on its own port each operation's bytes select the case it came from. -/
theorem decodingAnEncodedOperationGivesItBack : Obligations.DecodingAnEncodedOperationGivesItBack := by
  intro tc i d bs hinj hwf hport hbytes
  cases d with
  | rx => exact congrArg Except.ok (decodeRx_encode hinj hwf hport hbytes)
  | tx => exact decodeTx_encode hinj hwf hport hbytes

/-- Settles O55: eight closed words, each evaluated. -/
theorem tableWordsDecodeToTheirRow : Obligations.TableWordsDecodeToTheirRow := by
  unfold Obligations.TableWordsDecodeToTheirRow
  decide

end Sys2Proof

/-!
PROOFS. The stream (spec R182, R201, R213): each operation appends only frames whose length and checksum are right.
-/

namespace Sys2Proof.Machine

/-- A frame that DECODE reads without a flag, with at most 255 payload bytes (R181, R182). -/
def WellFormedFrame (f : Bytes) : Prop :=
  ∃ r, decodeFrame f = .record r ∧ r.err = .empty ∧ r.payload.length ≤ 255

/-- Everything on port `tx` is such a frame. -/
abbrev WellFormedStream (s : State) : Prop := ∀ f ∈ s.port.tx, WellFormedFrame f

theorem wellFormedFrame_encodeFrame (type : Byte) {payload : Bytes} (h : payload.length ≤ 255) :
    WellFormedFrame (encodeFrame type payload) := by
  obtain ⟨r, hdecode, -, rfl, herr⟩ := decodeFrame_encodeFrame type payload h
  exact ⟨r, hdecode, herr, h⟩

/-! The operations that emit, each on a stream that is well-formed so far. -/

theorem wellFormedStream_of_nil {s : State} (h : s.port.tx = []) : WellFormedStream s := by
  intro f hf
  rw [h] at hf
  cases hf

theorem WellFormedStream.of_port_eq {s t : State} (h : WellFormedStream s) (hport : t.port = s.port) :
    WellFormedStream t := by
  unfold WellFormedStream
  rwa [hport]

theorem WellFormedStream.emit {s : State} (h : WellFormedStream s) {f : Bytes} (hf : WellFormedFrame f) :
    WellFormedStream (emit f s) := by
  intro g hg
  rcases List.mem_append.1 hg with hold | hnew
  · exact h g hold
  · exact List.mem_singleton.1 hnew ▸ hf

theorem WellFormedStream.reportCondition {s : State} (h : WellFormedStream s) (err : ErrFlags) (r : DecodeResult) :
    WellFormedStream (reportCondition err r s) :=
  WellFormedStream.emit (s := { s with port := { s.port with
    reports := s.port.reports ++ [reportRecord s.params.typeCode err r] } }) h
    (wellFormedFrame_encodeFrame _ (errText_length _))

theorem WellFormedStream.sendInputs {s : State} (h : WellFormedStream s) (t c : Word) (b : Byte) :
    WellFormedStream (sendInputs t c b s) :=
  h.emit (wellFormedFrame_encodeFrame _ (by simp))

theorem WellFormedStream.drainLatch {s : State} (h : WellFormedStream s) : WellFormedStream (drainLatch s) := by
  by_cases hseen : s.il.changedAtUs = s.il.lastObservedUs
  · rwa [drainLatch_of_seen hseen]
  · rw [drainLatch_of_new hseen]
    exact h.sendInputs s.il.changedAtUs s.pe.pulseCount s.il.bits

/-! Inbound frames (R200 to R207). -/

/-- An arm sends nothing, or the ECHO frame that came, or the ACK. -/
theorem WellFormedStream.armOf {s : State} (h : WellFormedStream s) (ft : FrameType) (type length cks : Byte)
    (payload : Bytes) : WellFormedStream (armOf ft (decodeRecord type length cks payload) s).1 := by
  cases ft with
  | echo =>
    by_cases hclean : (decodeRecord type length cks payload).err.isEmpty = true
    · obtain ⟨hfits, hraw⟩ := encodeFrame_of_isEmpty hclean
      rw [Machine.armOf, echoArm, if_pos hclean, rawOf_decodeRecord, hraw]
      exact h.emit (wellFormedFrame_encodeFrame type hfits)
    · rwa [Machine.armOf, echoArm, if_neg hclean]
  | setup =>
    rcases setupArm_cases (decodeRecord type length cks payload) s with ⟨cfg, -, -, harm⟩ | harm <;>
      rw [Machine.armOf, harm]
    · exact WellFormedStream.emit (s := stageCfg cfg s) h (wellFormedFrame_encodeFrame _ (Nat.zero_le 255))
    · exact h
  | _ => exact h

theorem WellFormedStream.runArm {s : State} (h : WellFormedStream s) (ft : FrameType) (type length cks : Byte)
    (payload : Bytes) : WellFormedStream (runArm (Machine.armOf ft) (decodeRecord type length cks payload) s).1 := by
  have harm := h.armOf ft type length cks payload
  unfold Machine.runArm
  dsimp only
  split
  · exact harm
  · exact harm.reportCondition _ _

/-! HANDLE on a sequence with a header and on one without (R200). -/

theorem handleFrame_cons (type length cks : Byte) (payload : Bytes) (s : State) :
    handleFrame (type :: length :: cks :: payload) s =
      runArm (armOf (frameType s.params.typeCode type)) (decodeRecord type length cks payload) s := rfl

theorem handleFrame_short {raw : Bytes} (s : State) (h : raw.length < 3) :
    handleFrame raw s = handleShort raw.length shortFlags s := by
  unfold handleFrame
  rw [decodeFrame_short raw h]

theorem WellFormedStream.handleFrame {s : State} (h : WellFormedStream s) (raw : Bytes) :
    WellFormedStream (handleFrame raw s).1 := by
  rcases short_or_header raw with hshort | ⟨type, length, cks, payload, rfl⟩
  · rw [handleFrame_short s hshort]
    exact h.reportCondition _ _
  · rw [handleFrame_cons]
    exact h.runArm _ type length cks payload

theorem WellFormedStream.overflowReport {s : State} (h : WellFormedStream s) : WellFormedStream (overflowReport s) :=
  h.emit (wellFormedFrame_encodeFrame _ overflowText_length)

theorem WellFormedStream.serviceItems {s : State} (h : WellFormedStream s) (items : List Item) :
    WellFormedStream (serviceItems items s).1 := by
  induction items generalizing s with
  | nil => exact h
  | cons item rest ih =>
    cases item with
    | frame raw => exact ih (h.handleFrame raw)
    | overflow => exact ih h.overflowReport

/-- The LOOP step of any phase (R214). -/
theorem WellFormedStream.loopBody {s : State} (h : WellFormedStream s) : WellFormedStream (loopBody s) := by
  rcases loopBody_cases s with ⟨-, hbody⟩ | ⟨-, hbody⟩ | ⟨-, hbody⟩ | ⟨-, hbody⟩ <;> rw [hbody]
  · exact h.of_port_eq (tickEngine_port s)
  · exact h.drainLatch
  · exact WellFormedStream.serviceItems (s := { s with env := { s.env with rx := [] } }) h s.env.rx
  · exact h.of_port_eq (pollStaged_port s)

/-! What an operation that can be refused leaves when it is not. -/

theorem eq_of_ite_next {p : Prop} [Decidable p] {a t : State} {r : Refusal}
    (h : (if p then .next a else .refused r : Host.Outcome State Fault Refusal) = .next t) : p ∧ t = a := by
  split at h
  case isTrue hp => exact ⟨hp, (next_inj.1 h).symm⟩
  case isFalse => cases h

theorem eq_of_ite_refused {p : Prop} [Decidable p] {a t : State} {r : Refusal}
    (h : (if p then .refused r else .next a : Host.Outcome State Fault Refusal) = .next t) : ¬ p ∧ t = a := by
  split at h
  case isTrue => cases h
  case isFalse hp => exact ⟨hp, (next_inj.1 h).symm⟩

/-- Settles O52: operation by operation, from the empty stream each begins with. -/
theorem everyEmittedFrameIsWellFormed : Obligations.EveryEmittedFrameIsWellFormed := by
  intro i s t h
  have hbegin : WellFormedStream s.begin := wellFormedStream_of_nil rfl
  have hinbound : ∀ (ft : FrameType) (type length cks : Byte) (payload : Bytes),
      inbound (armOf ft) type length cks payload s = .next t → WellFormedStream t := by
    intro ft type length cks payload hnext
    rw [← next_inj.1 hnext]
    exact hbegin.runArm ft type length cks payload
  change WellFormedStream t
  cases i with
  | reset => rw [← next_inj.1 h]; exact hbegin
  | adv d => rw [← next_inj.1 h]; exact hbegin
  | edge ch level => rw [(eq_of_ite_next h).2]; exact hbegin
  | tick => rw [(eq_of_ite_next h).2]; exact hbegin.of_port_eq (tickEngine_port s.begin)
  | drain => rw [(eq_of_ite_next h).2]; exact hbegin.drainLatch
  | service items => rw [(eq_of_ite_next h).2]; exact hbegin.serviceItems items
  | pollApply => rw [(eq_of_ite_next h).2]; exact hbegin.of_port_eq (pollStaged_port s.begin)
  | loopStep => rw [← next_inj.1 h]; exact hbegin.loopBody
  | snapshot => rw [← next_inj.1 h]; exact hbegin
  | apply cfg => rw [← next_inj.1 h]; exact hbegin.of_port_eq (applyCfg_port cfg s.begin)
  | boundaryCommit => rw [(eq_of_ite_refused h).2]; exact hbegin.of_port_eq (boundaryCommit_port s.begin)
  | handle raw => rw [← next_inj.1 h]; exact hbegin.handleFrame raw
  | stage cfg => rw [← next_inj.1 h]; exact hbegin
  | report err r => rw [← next_inj.1 h]; exact hbegin.reportCondition err r
  | overflow => rw [← next_inj.1 h]; exact hbegin.overflowReport
  | rxEcho l c p => exact hinbound .echo _ l c p h
  | rxSetup l c p => exact hinbound .setup _ l c p h
  | rxInputs l c p => exact hinbound .inputs _ l c p h
  | rxAck l c p => exact hinbound .ack _ l c p h
  | rxError l c p => exact hinbound .error _ l c p h
  | rxTxt l c p => exact hinbound .txt _ l c p h
  | rxUnknown type l c p =>
    by_cases hother : frameType s.params.typeCode type = .other
    · rw [exec_rxUnknown_of_other type l c p s hother] at h
      exact hinbound .other type l c p h
    · rw [exec_rxUnknown_of_recognized type l c p s hother] at h
      cases h
  | rxShort raw => rw [(eq_of_ite_next h).2]; exact hbegin.reportCondition _ _
  | txEcho raw =>
    obtain ⟨hecho, ht⟩ := eq_of_ite_next h
    obtain ⟨payload, hfits, rfl⟩ := (isEchoFrame_iff _ raw).1 hecho
    rw [ht]
    exact hbegin.emit (wellFormedFrame_encodeFrame _ hfits)
  | txAck => rw [← next_inj.1 h]; exact hbegin.emit (wellFormedFrame_encodeFrame _ (Nat.zero_le 255))
  | txInputs u c b => rw [← next_inj.1 h]; exact hbegin.sendInputs u c b
  | txError text =>
    obtain ⟨hfits, ht⟩ := eq_of_ite_next h
    rw [ht]
    exact hbegin.emit (wellFormedFrame_encodeFrame _ hfits)
  | txTxt text =>
    obtain ⟨hfits, ht⟩ := eq_of_ite_next h
    rw [ht]
    exact hbegin.emit (wellFormedFrame_encodeFrame _ hfits)
  | checksum p => rw [← next_inj.1 h]; exact hbegin
  | decode raw => rw [← next_inj.1 h]; exact hbegin
  | encode type p => rw [(eq_of_ite_next h).2]; exact hbegin
  | setupDecode p =>
    cases hcfg : decodeSetup p with
    | none => rw [exec_setupDecode_of_none p s hcfg] at h; cases h
    | some cfg => rw [exec_setupDecode_of_some p cfg s hcfg] at h; rw [← next_inj.1 h]; exact hbegin
  | setupEncode cfg => rw [← next_inj.1 h]; exact hbegin
  | inputsEncode u c b => rw [← next_inj.1 h]; exact hbegin
  | halfPeriod r => rw [(eq_of_ite_refused h).2]; exact hbegin

end Sys2Proof.Machine

/-!
PROOFS. Inbound frames with an action (spec R200 to R212): SETUP, the reports, and which flags one HANDLE can raise.
-/

namespace Sys2Proof.Machine

/-! HANDLE is the operation its bytes decode to (R83, R200). -/

theorem exec_handle (raw : Bytes) (s : State) :
    exec (.handle raw) s = .next (withFlags (handleFrame raw s.begin)) := rfl

theorem exec_rxShort_of_short {raw : Bytes} (s : State) (h : raw.length < 3) :
    exec (.rxShort raw) s = .next (withFlags (handleShort raw.length shortFlags s.begin)) :=
  if_pos h

theorem exec_rxOperation (type length cks : Byte) (payload : Bytes) (s : State) :
    exec (rxOperation (frameType s.params.typeCode type) type length cks payload) s =
      inbound (armOf (frameType s.params.typeCode type)) type length cks payload s := by
  rcases frameType_cases s.params.typeCode type with
    ⟨h, htype⟩ | ⟨h, htype⟩ | ⟨h, htype⟩ | ⟨h, htype⟩ | ⟨h, htype⟩ | ⟨h, htype⟩ | ⟨h, -⟩ <;> rw [h]
  case inr.inr.inr.inr.inr.inr => exact exec_rxUnknown_of_other type length cks payload s h
  all_goals rw [htype]; rfl

theorem exec_decodeRx (raw : Bytes) (s : State) :
    exec (decodeRx s.params.typeCode raw) s = .next (withFlags (handleFrame raw s.begin)) := by
  rcases short_or_header raw with hshort | ⟨type, length, cks, payload, rfl⟩
  · rw [decodeRx_short _ hshort, exec_rxShort_of_short s hshort, handleFrame_short _ hshort]
  · rw [decodeRx_cons, exec_rxOperation]
    rfl

/-- Settles O33: both are the arm of the frame's type on the record of its bytes. -/
theorem handleIsTheDecodedOperation : Obligations.HandleIsTheDecodedOperation :=
  fun s raw => ⟨_, exec_handle raw s, exec_decodeRx raw s⟩

/-! ECHO, TXT and the short frame (R181, R201, R206). -/

/-- Settles O36: with a flag the ECHO arm sends nothing, so only the report is left. -/
theorem malformedEchoIsReported : Obligations.MalformedEchoIsReported := by
  intro s length cks payload err rep hinj herr hne hrep
  obtain ⟨hecho, -⟩ := frameType_of_injective s.params.typeCode hinj
  have hflags : (decodeRecord s.params.typeCode.echo length cks payload).err = err := by
    rw [decodeRecord_err_sum, herr]
  have hflag : err.isEmpty = false := Bool.eq_false_iff.2 (mt (errFlags_isEmpty_iff err).1 hne)
  have harm : echoArm (decodeRecord s.params.typeCode.echo length cks payload) s.begin = (s.begin, err) := by
    rw [echoArm, hflags, hflag]
    rfl
  exact inbound_of_noAction_of_flag harm hflag (by simp [hecho]) hrep

/-- Settles O41: TXT shares the arm that is not implemented, and its code is not that of SETUP. -/
theorem inboundTxtIsNotImplemented : Obligations.InboundTxtIsNotImplemented := by
  intro s length cks payload err rep hinj herr hrep
  obtain ⟨-, -, -, -, -, htxt⟩ := frameType_of_injective s.params.typeCode hinj
  exact inbound_notImplementedArm _ length cks payload s err rep (by simp [htxt]) herr hrep

/-- Settles O43: nothing is dispatched, the flag set of DECODE is reported as it is. -/
theorem shortFrameIsReportedAlone : Obligations.ShortFrameIsReportedAlone := by
  intro s raw rep hshort hrep
  subst hrep
  rw [exec_rxShort_of_short s hshort, handleShort, withFlags_reportCondition_begin shortFlags _ _ s rfl]
  rfl

/-! SETUP (R202, R209, R211). -/

theorem toNat_eq_setupLen_iff (length : Byte) : length.toNat = Config.setupLen ↔ length = 10 :=
  BitVec.toNat_inj (y := 10#8)

theorem setupErr_decodeRecord (type length cks : Byte) (payload : Bytes) :
    setupErr (decodeRecord type length cks payload) =
      ⟨decide (length ≠ 10 ∨ length.toNat ≠ payload.length), decide (cks ≠ payload.sum), false, false, false⟩ := by
  unfold setupErr
  rw [decodeRecord_length, decodeRecord_err_sum]
  by_cases h : length = 10
  · rw [if_neg (not_not.2 ((toNat_eq_setupLen_iff length).2 h))]
    simp only [h, ne_eq, not_true_eq_false, false_or]
  · rw [if_pos (mt (toNat_eq_setupLen_iff length).1 h), decide_eq_true (Or.inl h)]
    rfl

/-- A SETUP has its schema length to report where the declared length is another (R208, log 11). -/
theorem reportRecord_of_setup (tc : TypeCodes) (err : ErrFlags) (type length cks : Byte) (payload : Bytes)
    (htype : frameType tc type = .setup) :
    reportRecord tc err (.record (decodeRecord type length cks payload)) =
      ⟨err.vector, some type, some length, payload.length, if length = 10 then none else some 10, some cks,
        some payload.sum⟩ := by
  rw [reportRecord, decodeRecord_type, decodeRecord_length, htype, decodeRecord_computedCks, checksumOf_eq_sum]
  by_cases h : length = 10
  · rw [if_neg (fun hboth => hboth.2 ((toNat_eq_setupLen_iff length).2 h)), if_pos h]
    rfl
  · rw [if_pos ⟨rfl, mt (toNat_eq_setupLen_iff length).1 h⟩, if_neg h]
    rfl

theorem exec_rxSetup (length cks : Byte) (payload : Bytes) (s : State) :
    exec (.rxSetup length cks payload) s = inbound setupArm s.params.typeCode.setup length cks payload s := rfl

/-- A good SETUP is one STAGE and one ACK (R202, R209). -/
theorem exec_rxSetup_of_good {cks : Byte} {payload : Bytes} {cfg : SetupCfg} (s : State)
    (hcfg : decodeSetup payload = some cfg) (hlen : payload.length = 10) (hcks : cks = payload.sum) :
    exec (.rxSetup 10 cks payload) s = .next { s with
      sr := { stagedValid := true, staged := cfg, stagedAtUs := s.nowUs }
      port := ⟨[ackFrame s.params.typeCode], [], .flags .empty⟩ } := by
  have herr : setupErr (decodeRecord s.params.typeCode.setup 10 cks payload) = .empty := by
    rw [setupErr_decodeRecord]
    simp [hlen, hcks, ErrFlags.empty]
  have harm : setupArm (decodeRecord s.params.typeCode.setup 10 cks payload) s.begin =
      (sendAck (stageCfg cfg s.begin), .empty) := by
    simp only [setupArm, herr, errFlags_empty_isEmpty, if_true, decodeRecord_payload, hcfg]
  rw [exec_rxSetup, inbound, runArm, harm]
  rfl

/-- Settles O37: ten bytes are four fields, and the checksum is their sum. -/
theorem goodSetupIsStagedAndAcknowledged : Obligations.GoodSetupIsStagedAndAcknowledged := by
  intro s d0 d1 d2 d3 l0 l1 l2 l3 r f cks hcks
  have hsum : cks = [d0, d1, d2, d3, l0, l1, l2, l3, r, f].sum := by
    rw [hcks]
    simp [add_assoc]
  rw [exec_rxSetup_of_good s (decodeSetup_ten d0 d1 d2 d3 l0 l1 l2 l3 r f) rfl hsum, leValue_four, leValue_four]
  rfl

/-- Settles O39: the state a good SETUP leaves names no field of the staging register before it. -/
theorem replacementForgetsTheEarlierSetup : Obligations.ReplacementForgetsTheEarlierSetup := by
  intro s cks payload earlier hlen hcks
  obtain ⟨cfg, hcfg⟩ := decodeSetup_isSome payload hlen
  rw [exec_rxSetup_of_good _ hcfg hlen hcks, exec_rxSetup_of_good s hcfg hlen hcks]

/-- Settles O38: with a flag the SETUP arm stages nothing; the report has the schema length where the length is not 10. -/
theorem badSetupStagesNothing : Obligations.BadSetupStagesNothing := by
  intro s length cks payload err rep hinj herr hne hrep
  obtain ⟨-, hsetup, -⟩ := frameType_of_injective s.params.typeCode hinj
  have hflags : setupErr (decodeRecord s.params.typeCode.setup length cks payload) = err := by
    rw [setupErr_decodeRecord, herr]
  have hflag : err.isEmpty = false := Bool.eq_false_iff.2 (mt (errFlags_isEmpty_iff err).1 hne)
  have harm : setupArm (decodeRecord s.params.typeCode.setup length cks payload) s.begin = (s.begin, err) := by
    simp [setupArm, hflags, hflag]
  have hrecord := (reportRecord_of_setup s.params.typeCode err _ length cks payload hsetup).trans hrep.symm
  rw [exec_rxSetup, ← withFlags_reportCondition_begin err _ rep s hrecord]
  simp [inbound, runArm, harm, hflag]

/-! REPORT and OVERFLOW (R208, R212). -/

theorem exec_report (err : ErrFlags) (r : DecodeResult) (s : State) :
    exec (.report err r) s = .next { s with
      port := ⟨[encodeFrame s.params.typeCode.error (Config.errText (reportRecord s.params.typeCode err r))],
        [reportRecord s.params.typeCode err r], .none⟩ } := rfl

/-- Each condition stands at its bit (R91). -/
theorem vector_getLsbD (err : ErrFlags) :
    err.vector.getLsbD 0 = err.lengthMismatch ∧ err.vector.getLsbD 1 = err.checksumMismatch ∧
    err.vector.getLsbD 2 = err.notImplemented ∧ err.vector.getLsbD 3 = err.unknownType ∧
    err.vector.getLsbD 4 = err.transportOverflow := by
  obtain ⟨_ | _, _ | _, _ | _, _ | _, _ | _⟩ := err <;> decide

/-- Settles O44: REPORT is one ERROR frame with its record, the record is that of R208, and the vector that of R91. -/
theorem reportSendsTheTextOfItsRecord : Obligations.ReportSendsTheTextOfItsRecord := by
  intro s err rep
  refine ⟨fun n e hrep => ?short, fun f hrep => ?record, vector_getLsbD err⟩
  case short =>
    rw [exec_report, show reportRecord s.params.typeCode err (.short n e) = rep from hrep.symm]
  case record =>
    have hrecord : reportRecord s.params.typeCode err (.record f) = rep := by
      rw [hrep, reportRecord]
      simp only [ne_eq, toNat_eq_setupLen_iff]
      rfl
    rw [exec_report, hrecord]

theorem exec_overflow (s : State) : exec .overflow s = .next { s with
    port := ⟨[encodeFrame s.params.typeCode.error Config.overflowText], [], .flags overflowFlags⟩ } := rfl

/-- Settles O45: OVERFLOW is that one frame and its flag set. -/
theorem overflowSendsTheFixedText : Obligations.OverflowSendsTheFixedText := exec_overflow

/-! What one HANDLE raises (R241, R242). -/

/-- The flag set an arm collects from a record (R201 to R207). -/
def armFlags : FrameType → FrameRecord → ErrFlags
  | .echo, r => r.err
  | .setup, r => setupErr r
  | .inputs, r => raiseNotImplemented r.err
  | .ack, r => r.err
  | .error, r => raiseNotImplemented r.err
  | .txt, r => raiseNotImplemented r.err
  | .other, r => raiseUnknownType r.err

theorem armOf_flags (ft : FrameType) (r : FrameRecord) (s : State) : (armOf ft r s).2 = armFlags ft r := by
  cases ft with
  | echo => simp only [armOf, echoArm]; split <;> rfl
  | setup => rcases setupArm_cases r s with ⟨cfg, -, -, harm⟩ | harm <;> rw [armOf, harm] <;> rfl
  | _ => rfl

/-- No arm raises two of the type conditions, and none an overflow (R242). -/
theorem armFlags_decodeRecord (ft : FrameType) (type length cks : Byte) (payload : Bytes) :
    ((armFlags ft (decodeRecord type length cks payload)).notImplemented &&
        (armFlags ft (decodeRecord type length cks payload)).unknownType) = false ∧
      (armFlags ft (decodeRecord type length cks payload)).transportOverflow = false := by
  cases ft with
  | setup => simp [armFlags, setupErr_decodeRecord]
  | _ => simp [armFlags, raiseNotImplemented, raiseUnknownType]

theorem runArm_flags (ft : FrameType) (r : FrameRecord) (s : State) :
    (runArm (armOf ft) r s).2 = armFlags ft r := armOf_flags ft r s

/-- Settles O47: the flags are those of the arm, or of DECODE alone where there is no header. -/
theorem conditionsThatOccurTogether : Obligations.ConditionsThatOccurTogether := by
  intro s t raw h
  rw [exec_handle, next_inj] at h
  subst h
  refine ⟨(handleFrame raw s.begin).2, rfl, ?_⟩
  rcases short_or_header raw with hshort | ⟨type, length, cks, payload, rfl⟩
  · rw [handleFrame_short _ hshort]
    exact ⟨rfl, rfl, fun _ => rfl⟩
  · rw [handleFrame_cons, runArm_flags]
    obtain ⟨htypes, hoverflow⟩ := armFlags_decodeRecord (frameType s.params.typeCode type) type length cks payload
    exact ⟨htypes, hoverflow, fun hlen => absurd hlen (by simp)⟩

/-- A HANDLE that raises a condition is the report of it (R200, R241). -/
theorem handleFrame_of_flag (raw : Bytes) (s : State) (h : (handleFrame raw s).2.isEmpty = false) :
    ∃ r, (handleFrame raw s).1 = reportCondition (handleFrame raw s).2 r s := by
  rcases short_or_header raw with hshort | ⟨type, length, cks, payload, rfl⟩
  · rw [handleFrame_short _ hshort]
    exact ⟨_, rfl⟩
  · rw [handleFrame_cons] at h ⊢
    have hidle := armOf_idle _ _ s h
    refine ⟨.record (decodeRecord type length cks payload), ?_⟩
    simp only [runArm] at h ⊢
    rw [h, hidle]
    rfl

/-- Settles O46: HANDLE by `handleFrame_of_flag`, OVERFLOW by its whole effect. -/
theorem raisingAConditionChangesNoState : Obligations.RaisingAConditionChangesNoState := by
  constructor
  · intro s t raw err h hresult hne
    rw [exec_handle, next_inj] at h
    subst h
    obtain rfl : (handleFrame raw s.begin).2 = err := Result.flags.inj hresult
    have hflag := Bool.eq_false_iff.2 (mt (errFlags_isEmpty_iff _).1 hne)
    obtain ⟨r, hreport⟩ := handleFrame_of_flag raw s.begin hflag
    rw [withFlags, hreport]
    refine ⟨rfl, reportRecord s.params.typeCode (handleFrame raw s.begin).2 r, rfl, ?_, rfl⟩
    cases r <;> rfl
  · intro s
    exact ⟨_, exec_overflow s, rfl, rfl, rfl⟩

end Sys2Proof.Machine

/-!
PROOFS. The handling of frames reads the parameters and the clock, and writes the staging register and appends to the port
(spec R67, R215). So it does not see the latch pair, nor what stands on the port before: it commutes with any change of them.
-/

namespace Sys2Proof.Machine

/-- A change of the state that the handling of frames neither sees nor undoes. -/
structure PassesFrames (g : State → State) : Prop where
  params (s : State) : (g s).params = s.params
  emit (f : Bytes) (s : State) : emit f (g s) = g (emit f s)
  stage (cfg : SetupCfg) (s : State) : stageCfg cfg (g s) = g (stageCfg cfg s)
  report (err : ErrFlags) (r : DecodeResult) (s : State) :
    reportCondition err r (g s) = g (reportCondition err r s)

section PassesFrames

variable {g : State → State} (hg : PassesFrames g)

include hg

theorem sendAck_passes (s : State) : sendAck (g s) = g (sendAck s) := by
  rw [sendAck, hg.params, hg.emit]
  rfl

theorem overflowReport_passes (s : State) : overflowReport (g s) = g (overflowReport s) := by
  rw [overflowReport, sendError, hg.params, hg.emit]
  rfl

theorem armOf_passes (ft : FrameType) (r : FrameRecord) (s : State) :
    armOf ft r (g s) = (g (armOf ft r s).1, (armOf ft r s).2) := by
  cases ft with
  | echo =>
    simp only [armOf, echoArm]
    split
    · rw [hg.emit]
    · rfl
  | setup =>
    by_cases hclean : (setupErr r).isEmpty = true
    · cases hcfg : decodeSetup r.payload with
      | none => simp [armOf, setupArm, hclean, hcfg]
      | some cfg => simp [armOf, setupArm, hclean, hcfg, hg.stage, sendAck_passes hg]
    · simp [armOf, setupArm, hclean]
  | _ => rfl

theorem runArm_passes (ft : FrameType) (r : FrameRecord) (s : State) :
    runArm (armOf ft) r (g s) = (g (runArm (armOf ft) r s).1, (runArm (armOf ft) r s).2) := by
  simp only [runArm, armOf_passes hg]
  split
  · rfl
  · rw [hg.report]

theorem handleFrame_passes (raw : Bytes) (s : State) :
    handleFrame raw (g s) = (g (handleFrame raw s).1, (handleFrame raw s).2) := by
  rcases short_or_header raw with hshort | ⟨type, length, cks, payload, rfl⟩
  · rw [handleFrame_short _ hshort, handleFrame_short _ hshort, handleShort, handleShort, hg.report]
  · rw [handleFrame_cons, handleFrame_cons, hg.params, runArm_passes hg]

theorem handleItem_passes (item : Item) (s : State) :
    handleItem item (g s) = (g (handleItem item s).1, (handleItem item s).2) := by
  cases item with
  | frame raw => exact handleFrame_passes hg raw s
  | overflow => exact Prod.ext (overflowReport_passes hg s) rfl

theorem serviceItems_passes (items : List Item) (s : State) :
    serviceItems items (g s) = (g (serviceItems items s).1, (serviceItems items s).2) := by
  induction items generalizing s with
  | nil => rfl
  | cons item rest ih => simp only [serviceItems, handleItem_passes hg, ih]

end PassesFrames

/-! SERVICE in order (R215): what stands on the port already stays in front. -/

/-- The outputs `p` in front of those of `s`, with the result of `p`. -/
def behindPort (p : Port) (s : State) : State :=
  { s with port := ⟨p.tx ++ s.port.tx, p.reports ++ s.port.reports, p.result⟩ }

theorem behindPort_begin (s : State) : behindPort s.port s.begin = s := by
  simp [behindPort, State.begin, Port.idle]

theorem passesFrames_behindPort (p : Port) : PassesFrames (behindPort p) where
  params _ := rfl
  emit f s := by simp [behindPort, emit]
  stage _ _ := rfl
  report err r s := by simp [behindPort, reportCondition, sendError, emit]

theorem exec_itemInstr (item : Item) (s : State) :
    exec (itemInstr item) s = .next (withFlags (handleItem item s.begin)) := by
  cases item <;> rfl

theorem handleItem_phase (item : Item) (s : State) : (handleItem item s).1.phase = s.phase := by
  obtain ⟨sr, port, h⟩ := handleItem_stagesAtMost item s
  rw [h]

theorem exec_service {s : State} (items : List Item) (h : s.phase = .service) :
    exec (.service items) s = .next (advancePhase (serviceOp items s.begin)) :=
  loopOperation_of_phase h

/-- Settles O48: the rest is handled behind the port of the first item, and otherwise as from an empty port. -/
theorem serviceHandlesItsItemsInOrder : Obligations.ServiceHandlesItsItemsInOrder := by
  intro s hphase
  constructor
  · rw [exec_service [] hphase]
    simp [serviceOp, serviceItems, withResult_begin, advancePhase, hphase, nextPhase]
  · intro item rest
    have hphase' : (withFlags (handleItem item s.begin)).phase = .service := (handleItem_phase item s.begin).trans hphase
    refine ⟨_, _, _, exec_itemInstr item s, exec_service rest hphase', exec_service (item :: rest) hphase, ?_⟩
    have hrest := serviceItems_passes (passesFrames_behindPort (handleItem item s.begin).1.port) rest
      (handleItem item s.begin).1.begin
    rw [behindPort_begin] at hrest
    simp only [serviceOp, serviceItems, hrest]
    exact ⟨rfl, rfl, rfl⟩

/-! An EDGE beside an operation that does not read the latch (R67). -/

/-- The state with another latch. -/
def setLatch (il : InputLatch) (s : State) : State := { s with il := il }

theorem passesFrames_setLatch (il : InputLatch) : PassesFrames (setLatch il) where
  params _ := rfl
  emit _ _ := rfl
  stage _ _ := rfl
  report _ _ _ := rfl

theorem tickEngine_eta (s : State) :
    tickEngine s = { s with pe := (tickEngine s).pe, out := (tickEngine s).out } := by
  obtain ⟨pe, out, h⟩ := tickEngine_frame s
  rw [h]

theorem tickEngine_setLatch (il : InputLatch) (s : State) :
    tickEngine (setLatch il s) = setLatch il (tickEngine s) := by
  rw [tickEngine_eta (setLatch il s), tickEngine_eta s,
    tickEngine_pe_congr (s := s) (t := setLatch il s) rfl rfl,
    tickEngine_out_congr (s := s) (t := setLatch il s) rfl rfl rfl]
  rfl

theorem boundaryCommit_setLatch (il : InputLatch) (s : State) :
    boundaryCommit (setLatch il s) = setLatch il (boundaryCommit s) := by
  rw [boundaryCommit_eq, boundaryCommit_eq]
  rfl

theorem applyCfg_setLatch (cfg : SetupCfg) (il : InputLatch) (s : State) :
    applyCfg cfg (setLatch il s) = setLatch il (applyCfg cfg s) := by
  by_cases hzero : s.pe.currentRateHz = 0
  · rw [applyCfg_eq, applyCfg_eq, if_pos hzero, if_pos (show (setLatch il s).pe.currentRateHz = 0 from hzero)]
    rfl
  · rw [applyCfg_eq, applyCfg_eq, if_neg hzero, if_neg (show ¬ (setLatch il s).pe.currentRateHz = 0 from hzero)]
    rfl

theorem pollStaged_of_due {s : State} (h : stagedDue s = true) :
    pollStaged s = { applyCfg s.sr.staged s with sr := { s.sr with stagedValid := false } } := by
  simp [pollStaged, h]

theorem pollStaged_of_not_due {s : State} (h : stagedDue s = false) : pollStaged s = s := by
  simp [pollStaged, h]

theorem pollStaged_setLatch (il : InputLatch) (s : State) :
    pollStaged (setLatch il s) = setLatch il (pollStaged s) := by
  cases hdue : stagedDue s with
  | false => rw [pollStaged_of_not_due hdue, pollStaged_of_not_due (s := setLatch il s) hdue]
  | true =>
    rw [pollStaged_of_due hdue, pollStaged_of_due (s := setLatch il s) hdue,
      show (setLatch il s).sr.staged = s.sr.staged from rfl, applyCfg_setLatch]
    rfl

theorem serviceOp_setLatch (items : List Item) (il : InputLatch) (s : State) :
    serviceOp items (setLatch il s) = setLatch il (serviceOp items s) := by
  simp only [serviceOp, serviceItems_passes (passesFrames_setLatch il)]
  rfl

/-! The LOOP step's operation in each phase (R214). -/

theorem loopBody_of_tick {s : State} (h : s.phase = .tick) : loopBody s = tickEngine s := by simp [loopBody, h]

theorem loopBody_of_drain {s : State} (h : s.phase = .drain) : loopBody s = drainLatch s := by simp [loopBody, h]

theorem loopBody_of_service {s : State} (h : s.phase = .service) :
    loopBody s = serviceOp s.env.rx { s with env := { s.env with rx := [] } } := by simp [loopBody, h]

theorem loopBody_of_pollApply {s : State} (h : s.phase = .pollApply) : loopBody s = pollStaged s := by
  simp [loopBody, h]

theorem loopBody_setLatch (il : InputLatch) (s : State) (h : s.phase ≠ .drain) :
    loopBody (setLatch il s) = setLatch il (loopBody s) := by
  cases hphase : s.phase with
  | tick =>
    rw [loopBody_of_tick hphase, loopBody_of_tick (s := setLatch il s) hphase]
    exact tickEngine_setLatch il s
  | drain => exact absurd hphase h
  | service =>
    rw [loopBody_of_service hphase, loopBody_of_service (s := setLatch il s) hphase]
    exact serviceOp_setLatch s.env.rx il { s with env := { s.env with rx := [] } }
  | pollApply =>
    rw [loopBody_of_pollApply hphase, loopBody_of_pollApply (s := setLatch il s) hphase]
    exact pollStaged_setLatch il s

theorem loopOperation_setLatch {p : Phase} {op : State → State} {s t : State} {il : InputLatch}
    (hop : op (setLatch il s.begin) = setLatch il (op s.begin)) (h : loopOperation p op s = .next t) :
    loopOperation p op (setLatch il s) = .next (setLatch il t) := by
  obtain ⟨hphase, rfl⟩ := (loopOperation_eq_next_iff p op s t).1 h
  rw [loopOperation_of_phase (s := setLatch il s) hphase, next_inj]
  exact congrArg advancePhase hop

theorem inbound_setLatch (il : InputLatch) (ft : FrameType) (type length cks : Byte) (payload : Bytes) (s t : State)
    (h : inbound (armOf ft) type length cks payload s = .next t) :
    inbound (armOf ft) type length cks payload (setLatch il s) = .next (setLatch il t) := by
  have hrun := runArm_passes (passesFrames_setLatch il) ft (decodeRecord type length cks payload) s.begin
  obtain rfl := next_inj.1 h
  exact congrArg (fun p => Host.Outcome.next (withFlags p)) hrun

/-- The operations that do not look at the latch, in the phase of `s` (R67). -/
structure IgnoresLatch (i : Instr) (s : State) : Prop where
  ne_reset : i ≠ .reset
  ne_edge : ∀ ch level, i ≠ .edge ch level
  ne_snapshot : i ≠ .snapshot
  ne_drain : i ≠ .drain
  loop_phase : i = .loopStep → s.phase ≠ .drain

/-- Such an operation does to a state with another latch what it does to the state, and keeps that latch. -/
theorem exec_setLatch {i : Instr} {s t : State} (hi : IgnoresLatch i s) (il : InputLatch) (h : exec i s = .next t) :
    exec i (setLatch il s) = .next (setLatch il t) := by
  cases i with
  | reset => exact absurd rfl hi.ne_reset
  | adv d => obtain rfl := next_inj.1 h; rfl
  | edge ch level => exact absurd rfl (hi.ne_edge ch level)
  | tick => exact loopOperation_setLatch (tickEngine_setLatch il s.begin) h
  | drain => exact absurd rfl hi.ne_drain
  | service items => exact loopOperation_setLatch (serviceOp_setLatch items il s.begin) h
  | pollApply => exact loopOperation_setLatch (pollStaged_setLatch il s.begin) h
  | loopStep =>
    obtain rfl := next_inj.1 h
    exact congrArg (fun a => Host.Outcome.next (advancePhase a)) (loopBody_setLatch il s.begin (hi.loop_phase rfl))
  | snapshot => exact absurd rfl hi.ne_snapshot
  | apply cfg =>
    obtain rfl := next_inj.1 h
    exact congrArg Host.Outcome.next (applyCfg_setLatch cfg il s.begin)
  | boundaryCommit =>
    obtain ⟨hlow, rfl⟩ := eq_of_ite_refused h
    exact (if_neg hlow).trans (congrArg Host.Outcome.next (boundaryCommit_setLatch il s.begin))
  | handle raw =>
    obtain rfl := next_inj.1 h
    exact congrArg (fun p => Host.Outcome.next (withFlags p))
      (handleFrame_passes (passesFrames_setLatch il) raw s.begin)
  | stage cfg => obtain rfl := next_inj.1 h; rfl
  | report err r => obtain rfl := next_inj.1 h; rfl
  | overflow => obtain rfl := next_inj.1 h; rfl
  | rxEcho l c p => exact inbound_setLatch il .echo _ l c p s t h
  | rxSetup l c p => exact inbound_setLatch il .setup _ l c p s t h
  | rxInputs l c p => exact inbound_setLatch il .inputs _ l c p s t h
  | rxAck l c p => exact inbound_setLatch il .ack _ l c p s t h
  | rxError l c p => exact inbound_setLatch il .error _ l c p s t h
  | rxTxt l c p => exact inbound_setLatch il .txt _ l c p s t h
  | rxUnknown type l c p =>
    by_cases hother : frameType s.params.typeCode type = .other
    · rw [exec_rxUnknown_of_other type l c p s hother] at h
      rw [exec_rxUnknown_of_other type l c p (setLatch il s) hother]
      exact inbound_setLatch il .other type l c p s t h
    · rw [exec_rxUnknown_of_recognized type l c p s hother] at h
      cases h
  | rxShort raw => obtain ⟨hshort, rfl⟩ := eq_of_ite_next h; exact if_pos hshort
  | txEcho raw => obtain ⟨hecho, rfl⟩ := eq_of_ite_next h; exact if_pos hecho
  | txAck => obtain rfl := next_inj.1 h; rfl
  | txInputs u c b => obtain rfl := next_inj.1 h; rfl
  | txError text => obtain ⟨hfits, rfl⟩ := eq_of_ite_next h; exact if_pos hfits
  | txTxt text => obtain ⟨hfits, rfl⟩ := eq_of_ite_next h; exact if_pos hfits
  | checksum p => obtain rfl := next_inj.1 h; rfl
  | decode raw => obtain rfl := next_inj.1 h; rfl
  | encode type p => obtain ⟨hfits, rfl⟩ := eq_of_ite_next h; exact if_pos hfits
  | setupDecode p =>
    cases hcfg : decodeSetup p with
    | none => rw [exec_setupDecode_of_none p s hcfg] at h; cases h
    | some cfg =>
      rw [exec_setupDecode_of_some p cfg s hcfg] at h
      obtain rfl := next_inj.1 h
      exact exec_setupDecode_of_some p cfg (setLatch il s) hcfg
  | setupEncode cfg => obtain rfl := next_inj.1 h; rfl
  | inputsEncode u c b => obtain rfl := next_inj.1 h; rfl
  | halfPeriod r => obtain ⟨hne, rfl⟩ := eq_of_ite_refused h; exact if_neg hne

/-- An operation takes what the one before put out for gone (log 4). -/
theorem exec_begin {i : Instr} (hi : i ≠ .snapshot) (s : State) : exec i s.begin = exec i s := by
  cases i with
  | snapshot => exact absurd rfl hi
  | _ => rfl

/-- The latch an EDGE leaves (R160). -/
theorem edgeLatch_eq_setLatch (ch : Nat) (level : Bool) (s : State) :
    edgeLatch ch level s = setLatch ⟨writeInputBit s.il.bits ch level, s.nowUs, s.il.lastObservedUs⟩ s := rfl

/-- Such an operation leaves the latch as it was. -/
theorem exec_il_of_ignoresLatch {i : Instr} {s t : State} (hi : IgnoresLatch i s) (h : exec i s = .next t) :
    t.il = s.il := by
  have hsame := exec_setLatch hi s.il h
  rw [show setLatch s.il s = s from rfl, h, next_inj] at hsame
  rw [hsame]
  rfl

/-- Settles O25: the operation carries the edge's latch through, and leaves the clock and the pins the edge reads. -/
theorem edgeBeforeOrAfterAnOperationIsTheSame : Obligations.EdgeBeforeOrAfterAnOperationIsTheSame := by
  intro i ch level s a b hreset hadv hedge hsnapshot hdrain hloop ha hb
  have hi : IgnoresLatch i s := ⟨hreset, hedge, hsnapshot, hdrain, hloop⟩
  obtain ⟨hpresent, rfl⟩ := (edge_eq_next_iff ch level a b).1 hb
  have hpresent' : channelPresent s ch = true := by
    rw [channelPresent_iff] at hpresent ⊢
    rwa [← (exec_parameters ha).1]
  have hlatch : edgeLatch ch level a.begin =
      setLatch ⟨writeInputBit s.il.bits ch level, s.nowUs, s.il.lastObservedUs⟩ a.begin := by
    rw [edgeLatch_eq_setLatch, begin_il, begin_nowUs, exec_il_of_ignoresLatch hi ha, exec_nowUs ha hreset hadv]
  have ha' : exec i s.begin = .next a := (exec_begin hsnapshot s).trans ha
  have hi' : IgnoresLatch i s.begin := ⟨hreset, hedge, hsnapshot, hdrain, hloop⟩
  refine ⟨edgeLatch ch level s.begin, _, exec_edge_of_present ch level s hpresent', exec_setLatch hi' _ ha', ?_, rfl⟩
  rw [State.block, State.block, hlatch]
  rfl

end Sys2Proof.Machine

/-!
PROOFS. The control loop (spec R41, R123 to R129, R210, R214): each operation of the engine and of the loop with its whole
next state.
-/

namespace Sys2Proof.Machine

/-! The sequencer (R41, X3). -/

/-- A named LOOP operation that is the LOOP step's own in its phase, and refused elsewhere. -/
theorem loopOperation_eq_ite (p : Phase) {op : State → State} {s t : State}
    (h : s.phase = p → advancePhase (op s.begin) = t) :
    loopOperation p op s = if phaseCode s.phase = phaseCode p then .next t else .refused .outOfPhase := by
  by_cases hphase : s.phase = p
  · rw [loopOperation_of_phase hphase, h hphase, if_pos (congrArg phaseCode hphase)]
  · rw [loopOperation, if_neg hphase, if_neg (mt (phaseCode_inj s.phase p).1 hphase)]

/-- Settles O5: in each phase the body of the LOOP step is the operation of that phase. -/
theorem loopStepPerformsTheOperationOfThePhase : Obligations.LoopStepPerformsTheOperationOfThePhase := by
  intro s
  have hphase : phaseCode (advancePhase (loopBody s.begin)).phase = phaseCode s.phase + 1 := by
    rw [advancePhase_phase, phaseCode_nextPhase]
    rcases loopBody_cases s.begin with ⟨-, hbody⟩ | ⟨-, hbody⟩ | ⟨-, hbody⟩ | ⟨-, hbody⟩ <;> simp [hbody]
  refine ⟨advancePhase (loopBody s.begin), rfl, hphase, ?tick, ?drain, ?service, ?poll⟩
  case tick =>
    exact loopOperation_eq_ite .tick fun h => congrArg advancePhase (loopBody_of_tick (s := s.begin) h).symm
  case drain =>
    exact loopOperation_eq_ite .drain fun h => congrArg advancePhase (loopBody_of_drain (s := s.begin) h).symm
  case service =>
    exact loopOperation_eq_ite .service (s := { s with env := { s.env with rx := [] } })
      fun h => congrArg advancePhase (loopBody_of_service (s := s.begin) h).symm
  case poll =>
    exact loopOperation_eq_ite .pollApply fun h => congrArg advancePhase (loopBody_of_pollApply (s := s.begin) h).symm

/-! TICK (R123 to R128). -/

/-- TICK in its phase: the tick of the engine, then the DRAIN phase. -/
theorem exec_tick {s : State} (h : s.phase = .tick) :
    exec .tick s = .next { tickEngine s.begin with phase := .drain } := by
  refine (loopOperation_of_phase h).trans ?_
  rw [advancePhase, tickEngine_phase, begin_phase, h]
  rfl

/-- Settles O7: with its gate closed TICK leaves the engine. -/
theorem tickBeforeTheHalfPeriodChangesNothing : Obligations.TickBeforeTheHalfPeriodChangesNothing := by
  intro s hphase hclosed
  have hgate : ¬ togglesNow s.begin = true := by
    rw [togglesNow_iff]
    rintro ⟨hrate, helapsed⟩
    rcases hclosed with hzero | hearly
    · exact hrate hzero
    · exact Nat.not_le.2 hearly helapsed
  rw [exec_tick hphase, tickEngine, if_neg hgate]
  rfl

/-- Settles O8: `tickEngine_rising` with the gate in numbers. -/
theorem tickRisingEdge : Obligations.TickRisingEdge := by
  intro s hphase hlow hrate helapsed
  rw [exec_tick hphase, tickEngine_rising s.begin hlow ((togglesNow_iff s.begin).2 ⟨hrate, helapsed⟩)]
  rfl

/-- Settles O9: `tickEngine_falling` with the gate in numbers. -/
theorem tickFallingEdge : Obligations.TickFallingEdge := by
  intro s req hphase hhigh hrate helapsed hreq
  rw [exec_tick hphase, tickEngine_falling s.begin hhigh ((togglesNow_iff s.begin).2 ⟨hrate, helapsed⟩) req hreq]
  rfl

/-! BOUNDARY_COMMIT and APPLY (R128, R129). -/

/-- Settles O10: on LOW the whole commit, on HIGH the refusing branch. -/
theorem boundaryCommitCommitsOnLow : Obligations.BoundaryCommitCommitsOnLow := by
  intro s
  constructor
  · intro hlow
    have hnext : exec .boundaryCommit s = .next (boundaryCommit s.begin) := if_neg (by simp [hlow])
    rw [hnext, boundaryCommit_eq]
    rfl
  · intro hhigh
    exact if_pos hhigh

theorem exec_apply (cfg : SetupCfg) (s : State) : exec (.apply cfg) s = .next (applyCfg cfg s.begin) := rfl

/-- Settles O11: on a running engine `applyCfg_eq` is a request. -/
theorem applyWhileRunningOnlyRequests : Obligations.ApplyWhileRunningOnlyRequests := by
  intro s cfg hrunning
  rw [exec_apply, applyCfg_eq, if_neg (show ¬ s.begin.pe.currentRateHz = 0 from hrunning)]
  rfl

/-- Settles O12: on a stopped engine `applyCfg_eq` is the request and its commit. -/
theorem applyWhileStoppedCommitsAtOnce : Obligations.ApplyWhileStoppedCommitsAtOnce := by
  intro s cfg hstopped
  rw [exec_apply, applyCfg_eq, if_pos (show s.begin.pe.currentRateHz = 0 from hstopped)]
  rfl

/-! POLL_APPLY (R210). -/

/-- POLL_APPLY in its phase, then the TICK phase. -/
theorem exec_pollApply {s : State} (h : s.phase = .pollApply) :
    exec .pollApply s = .next { pollStaged s.begin with phase := .tick } := by
  refine (loopOperation_of_phase h).trans ?_
  rw [advancePhase, pollStaged_phase, begin_phase, h]
  rfl

/-- Settles O50: the two cases of `stagedDue`. -/
theorem pollApplyAppliesOnceWhenDue : Obligations.PollApplyAppliesOnceWhenDue := by
  intro s hphase
  constructor
  · intro hdue
    refine ⟨applyCfg s.sr.staged s.begin, rfl, ?_⟩
    rw [exec_pollApply hphase, pollStaged_of_due (s := s.begin) ((stagedDue_iff s.begin).2 hdue)]
    rfl
  · intro hwaiting
    have hnot : ¬ stagedDue s.begin = true := by
      rw [stagedDue_iff]
      rintro ⟨hvalid, hdelay⟩
      rcases hwaiting with hnone | hearly
      · exact Bool.false_ne_true (hnone.symm.trans hvalid)
      · exact Nat.not_le.2 hearly hdelay
    rw [exec_pollApply hphase, pollStaged_of_not_due (Bool.not_eq_true _ ▸ hnot)]
    rfl

/-! RESET and time (R122, R270). -/

theorem exec_reset (s : State) : exec .reset s = .next (resetAll s.begin) := rfl

/-- Driving the outputs keeps the channels without a pin without a level (R31). -/
theorem trigOut_resetAll (s : State) (k : Nat) : trigOut (resetAll s) k = (trigOut s k).map fun _ => false := by
  simp only [trigOut, resetAll_out, driveOutputs, List.getElem?_map]
  rcases s.out[k]? with _ | _ | _ <;> rfl

/-- Settles O1: `resetAll` writes each element. -/
theorem resetWritesEveryElement : Obligations.ResetWritesEveryElement := by
  intro s
  exact ⟨resetAll s.begin, rfl, rfl, rfl, rfl, rfl, rfl, rfl, rfl, rfl, rfl, rfl, rfl, rfl, rfl, rfl, rfl, rfl, rfl, rfl,
    trigOut_resetAll s.begin, driveOutputs_length false s.out, rfl, rfl, rfl⟩

/-- Settles O2: RESET leads from this state to itself, so its invariants are those of any state after RESET. -/
theorem resetStateMeetsTheInvariants : Obligations.ResetStateMeetsTheInvariants := by
  have hreset : exec .reset State.reset = .next State.reset := exec_reset State.reset
  have hinvariant : BlockInvariant State.reset := blockInvariant_resetAll State.reset.begin
  exact ⟨hreset, hinvariant, ⟨by decide, by decide⟩, rfl⟩

/-- Settles O4: the subtraction wraps where the clock did. -/
theorem elapsedIsRightAcrossOneWrap : Obligations.ElapsedIsRightAcrossOneWrap := by
  intro t0 t1 hle hlt
  rw [elapsedUs, BitVec.toNat_sub, BitVec.toNat_ofNat, BitVec.toNat_ofNat]
  omega

/-- Settles O18: the pure function, and its refusal at 0. -/
theorem halfPeriodIsTheFloor : Obligations.HalfPeriodIsTheFloor := by
  intro s
  exact ⟨fun r hr => if_neg hr, rfl⟩

end Sys2Proof.Machine

/-!
PROOFS. Outbound operations and the machine's step (spec R5, R86 to R90, R213, R214).
-/

namespace Sys2Proof.Machine

/-! Outbound operations (R213). -/

theorem encodeFrame_eq (type : Byte) (payload : Bytes) :
    encodeFrame type payload = type :: BitVec.ofNat 8 payload.length :: payload.sum :: payload := by
  rw [encodeFrame, checksumOf_eq_sum]

theorem exec_txEcho_of_echo {raw : Bytes} {s : State} (h : isEchoFrame s.params.typeCode raw = true) :
    exec (.txEcho raw) s = .next { s with port := ⟨[raw], [], .none⟩ } := if_pos h

theorem exec_txEcho_of_not_echo {raw : Bytes} {s : State} (h : isEchoFrame s.params.typeCode raw = false) :
    exec (.txEcho raw) s = .refused .notEchoFrame := if_neg (by simp [h])

theorem exec_txInputs (t c : Word) (b : Byte) (s : State) : exec (.txInputs t c b) s =
    .next { s with port := ⟨[inputsFrame s.params.typeCode t c b], [], .none⟩ } := rfl

/-- A frame with a header is an ECHO frame by its type, length and checksum (R88). -/
theorem isEchoFrame_cons_iff (tc : TypeCodes) (type length cks : Byte) (payload : Bytes) :
    isEchoFrame tc (type :: length :: cks :: payload) = true ↔
      type = tc.echo ∧ length.toNat = payload.length ∧ cks = payload.sum := by
  rw [isEchoFrame, decodeFrame_cons, ← checksumOf_eq_sum, ← decodeRecord_isEmpty_iff, Bool.and_eq_true, beq_iff_eq,
    decodeRecord_type]

/-- Settles O51: each operation appends its builder's frame, and refuses what no builder makes. -/
theorem outboundBuildersEmitTheirFrame : Obligations.OutboundBuildersEmitTheirFrame := by
  intro s
  refine ⟨rfl, fun t c b => ⟨_, rfl, ?inputs⟩, fun text hfits => ?texts, fun text hlong => ?long,
    fun length cks payload hlen hcks => ?echo, fun type length cks payload hbad => ?notEcho, fun raw hshort => ?short⟩
  case inputs => rw [exec_txInputs, inputsFrame_bytes, encodeInputs_bytes]
  case texts =>
    rw [← encodeFrame_eq, ← encodeFrame_eq]
    exact ⟨if_pos hfits, if_pos hfits⟩
  case long => exact ⟨if_neg (Nat.not_le.2 hlong), if_neg (Nat.not_le.2 hlong)⟩
  case echo => exact exec_txEcho_of_echo ((isEchoFrame_cons_iff ..).2 ⟨rfl, hlen, hcks⟩)
  case notEcho =>
    apply exec_txEcho_of_not_echo
    rw [Bool.eq_false_iff, ne_eq, isEchoFrame_cons_iff]
    rintro ⟨htype, hlen, hcks⟩
    rcases hbad with h | h | h
    · exact h htype
    · exact h hlen
    · exact h hcks
  case short =>
    apply exec_txEcho_of_not_echo
    rw [isEchoFrame, decodeFrame_short raw hshort]

/-! The step (R5, R214). -/

theorem step_of_turns_nil {s : State} (h : s.env.turns = []) : step s = exec .loopStep s := by
  have hturn : nextTurn s = .loop [] := by rw [nextTurn, h]; rfl
  have htake : takeTurn s = s := by
    rw [takeTurn, hturn, h, turnOffers, List.append_nil, List.tail_nil, ← h]
  rw [step, hturn, htake, turnInstr]

theorem step_of_turns_cons {s : State} {u : Turn} {rest : List Turn} (h : s.env.turns = u :: rest) :
    step s = exec (turnInstr u) { s with env := { rx := s.env.rx ++ turnOffers u, turns := rest } } := by
  have hturn : nextTurn s = u := by rw [nextTurn, h]; rfl
  rw [step, takeTurn, hturn, h, List.tail_cons]

/-- A turn that is not the LOOP agent's offers nothing to port `rx`. -/
theorem step_of_turns_cons_of_no_offer {s : State} {u : Turn} {rest : List Turn} (h : s.env.turns = u :: rest)
    (hoffer : turnOffers u = []) : step s = exec (turnInstr u) { s with env := { s.env with turns := rest } } := by
  rw [step_of_turns_cons h, hoffer, List.append_nil]

/-- Settles O56: the empty list of turns, and a list that begins with each kind of turn. -/
theorem stepPerformsTheNextTurn : Obligations.StepPerformsTheNextTurn := by
  intro s rest
  exact ⟨step_of_turns_nil, fun h => step_of_turns_cons_of_no_offer h rfl,
    fun _ h => step_of_turns_cons_of_no_offer h rfl, fun _ _ h => step_of_turns_cons_of_no_offer h rfl,
    fun _ h => step_of_turns_cons h⟩

/-- SERVICE of one frame is HANDLE of it, with its flag set as the one result (R215, log 10). -/
theorem advancePhase_serviceOp_frame (raw : Bytes) {s : State} (h : s.phase = .service) :
    advancePhase (serviceOp [.frame raw] s) = { withFlags (handleFrame raw s) with
      phase := .pollApply
      port := { (withFlags (handleFrame raw s)).port with result := .serviced [(handleFrame raw s).2] } } := by
  have hphase : (serviceOp [.frame raw] s).phase = .service := (serviceOp_phase _ s).trans h
  rw [advancePhase, hphase]
  rfl

/-- Settles O57: the LOOP step in the SERVICE phase is SERVICE of the one frame, and that is the decoded operation. -/
theorem stepRunsTheDecodedFrame : Obligations.StepRunsTheDecodedFrame := by
  intro s raw i hphase hrx hturn hdecode _
  obtain rfl : decodeRx s.params.typeCode raw = i := Except.ok.inj hdecode
  have htake : takeTurn s = { s with env := { rx := [.frame raw], turns := s.env.turns.tail } } := by
    rw [takeTurn, hturn, hrx]
    rfl
  have hbody := loopBody_of_service (s := (takeTurn s).begin) hphase
  have hloop : step s = .next (advancePhase (loopBody (takeTurn s).begin)) := by rw [step, hturn]; rfl
  refine ⟨_, _, exec_decodeRx raw { s with env := { rx := [], turns := s.env.turns.tail } }, rfl, ?_⟩
  rw [hloop, hbody, htake]
  exact congrArg Host.Outcome.next (advancePhase_serviceOp_frame raw hphase)

end Sys2Proof.Machine
